-- ==== Sys2Proof/Word.lean ====
section
/-! DEFINITION. The bit-vector widths the spec uses for words, bytes and operands (00_scope.md R4, R5). -/

namespace Sys2Proof

/-- An operation word `OPW` (30_encoding.md R60). -/
abbrev Word := BitVec 16

/-- A byte of the page buffer, of a record, or of one sample field. -/
abbrev Byte := BitVec 8

/-- The operand `ARG` of an operation, `ARG_BITS` = 12 (00_scope.md R4, 30_encoding.md R63): a pulse count or a
12-bit target address. -/
abbrev Arg := BitVec 12

/-- A phase index 0..3 of a capture (10_state.md R18). -/
abbrev Phase := BitVec 2

end Sys2Proof
end

