-- ==== Sys2Proof/Config.lean ====
section
/-! DEFINITION. What is fixed for one BCU: the constants of 00_scope.md R3, the open parameters of R4, the type of a
pin read, and the free values behind both (log 3, log 4, log 10). -/

namespace Sys2Proof

/-- What `ReadPins()` returns (10_state.md R12): the low byte before the permutation, the rest after the board's
remapping table. -/
structure Pins where
  /-- the eight multiplexed address/data pins, in board port-bit order -/
  adRaw : Byte
  /-- high address bits (3..0) and control bits (7..4) -/
  hc : Byte
  /-- the NUM pin -/
  num : Bool
  /-- the STROBE pin -/
  stb : Bool
deriving DecidableEq, Repr, Inhabited

/-- A table of eight bit positions that is a bijection on 0..7, as `PERM` must be (40_bus_sampler.md R89). A table
that is not one cannot be built: the `refuse` of 93_implementation_defined.md U11 (log 4). -/
structure BitPerm where
  /-- output bit `i` is taken from input bit `entries[i]` -/
  entries : Vector (Fin 8) 8
  /-- eight different positions out of eight: a bijection -/
  bijective : entries.toList.Nodup
deriving DecidableEq, Repr

/-- The open parameters of one board (00_scope.md R4). -/
structure Config where
  /-- `PERM`, decision D9 -/
  perm : BitPerm
  /-- `T_LOW_US`, decision D10: no rule depends on it. R4 says a positive duration; that it is a whole number is the
  model's DESIGN CHOICE (log 12) -/
  tLowUs : ℕ+
  /-- `T_HIGH_US`, decision D10: no rule depends on it. A whole number: DESIGN CHOICE (log 12) -/
  tHighUs : ℕ+
  /-- `RESET_PULSES`, 0..4095, decision D11 -/
  resetPulses : Arg
  /-- `A_PH`, decision D13 -/
  aPh : Phase
  /-- `D_PH`, decision D13; `D_PH = A_PH` is legal (93_implementation_defined.md U10) -/
  dPh : Phase
  /-- DESIGN CHOICE (log 10): when a block reset finds both lines low, whether `Rise` is recorded before `RstHigh`.
  60_exceptions.md R155 names both events and no order. -/
  riseFirst : Bool
deriving DecidableEq, Repr

/-- `MEM_SIZE` (00_scope.md R3). -/
abbrev Config.memSize : Nat := 4096
/-- `RESERVED_SIZE` (00_scope.md R3). -/
abbrev Config.reservedSize : Nat := 128
/-- `PAGE_SIZE` (00_scope.md R3). -/
abbrev Config.pageSize : Nat := 64
/-- `REC_BYTES` (00_scope.md R3). -/
abbrev Config.recBytes : Nat := 4
/-- `PHASES` and `HIST_DEPTH` (00_scope.md R3). -/
abbrev Config.phases : Nat := 4
/-- `CSUM_SEED` (00_scope.md R3). -/
def Config.csumSeed : Byte := 0x81#8
/-- `PULSES_PER_PHASE`, decided = 1 (00_scope.md R4, decision D12). -/
def Config.pulsesPerPhase : Arg := 1#12

/-- The permutation table of a bijection. -/
def BitPerm.ofPerm (e : Equiv.Perm (Fin 8)) : BitPerm :=
  ⟨Vector.ofFn e, by simp [Vector.ofFn]⟩

/-! The parameters of the board that `State.reset` stands on. Each is opaque: no number is chosen (log 4, log 10). -/

/-- `PERM` of the board, an unknown bijection (91_not_in_source.md N3). -/
opaque Config.openPerm : Equiv.Perm (Fin 8)
/-- `T_LOW_US` of the board (91_not_in_source.md N4). -/
opaque Config.openTLow : ℕ+
/-- `T_HIGH_US` of the board (91_not_in_source.md N4). -/
opaque Config.openTHigh : ℕ+
/-- `RESET_PULSES` of the board (91_not_in_source.md N5). -/
opaque Config.openResetPulses : Arg
/-- `A_PH` of the board (91_not_in_source.md N6). -/
opaque Config.openAPh : Phase
/-- `D_PH` of the board (91_not_in_source.md N6). -/
opaque Config.openDPh : Phase
/-- The order of the two events of a block reset (log 10). -/
opaque Config.openRiseFirst : Bool

/-- The board of `State.reset`: every open parameter is unknown. -/
def Config.board : Config :=
  { perm := BitPerm.ofPerm Config.openPerm
    tLowUs := Config.openTLow
    tHighUs := Config.openTHigh
    resetPulses := Config.openResetPulses
    aPh := Config.openAPh
    dPh := Config.openDPh
    riseFirst := Config.openRiseFirst }

/-- The free value of the `n`-th pin read: the oracle of 00_scope.md R8 and 93_implementation_defined.md U1 (log 3).
Nothing is known of it, so a claim holds for every target. -/
opaque Config.freePins : Nat → Pins

end Sys2Proof
end

