-- ==== Sys2Proof/Syntax.lean ====
section
/-! DEFINITION. The six operations of the BCU (30_encoding.md R62), one constructor per row of the opcode table,
with their names, their assembler lines (R69) and the pseudo-operations (R70). -/

namespace Sys2Proof

/-- One operation of the BCU. Every other operation word is illegal (30_encoding.md R64). -/
inductive Instr where
  /-- `CLKP #n`: `n` clock pulses (40_bus_sampler.md R81). -/
  | clkp (n : Arg)
  /-- `SAMP`: take one bus sample (40_bus_sampler.md R87). -/
  | samp
  /-- `TRST`: reset the target (40_bus_sampler.md R88). -/
  | trst
  /-- `SEEK $a`: clock and sample until the bus shows address `a` qualified (41_cycle_search.md R101). -/
  | seek (a : Arg)
  /-- `CAPT`: capture one record (42_dump_engine.md R113). -/
  | capt
  /-- `WALK`: capture all 4096 records (42_dump_engine.md R114). -/
  | walk
deriving DecidableEq, Repr

/-- The name of an operation in the opcode table (30_encoding.md R62). -/
def Instr.mnemonic : Instr → String
  | .clkp _ => "CLKP"
  | .samp => "SAMP"
  | .trst => "TRST"
  | .seek _ => "SEEK"
  | .capt => "CAPT"
  | .walk => "WALK"

/-- Three hexadecimal digits of an operand, as the assembler writes an address (30_encoding.md R69). -/
def Arg.hex (a : Arg) : String :=
  String.ofList
    [Nat.digitChar (a.toNat / 256), Nat.digitChar (a.toNat / 16 % 16), Nat.digitChar (a.toNat % 16)]

/-- The assembler line of an operation (30_encoding.md R69). -/
def Instr.asm : Instr → String
  | .clkp n => "CLKP #" ++ toString n.toNat
  | .seek a => "SEEK $" ++ Arg.hex a
  | .samp => "SAMP"
  | .trst => "TRST"
  | .capt => "CAPT"
  | .walk => "WALK"

/-- Pseudo-operation `PULSE` (30_encoding.md R70). -/
def Instr.pulse : List Instr := [.clkp 1]

/-- Pseudo-operation `SYNC $a1, $a2` (30_encoding.md R70). -/
def Instr.sync (a1 a2 : Arg) : List Instr := [.trst, .seek a1, .seek a2]

/-- Pseudo-operation `DUMP $a1, $a2` (30_encoding.md R70): the boot order of 70_reset_and_hazards.md R172. -/
def Instr.dump (a1 a2 : Arg) : List Instr := Instr.sync a1 a2 ++ [.walk]

end Sys2Proof
end

