-- ==== Sys2Proof/WellFormed.lean ====
section
/-! DEFINITION. The checks of well-formedness: which operation words are legal (30_encoding.md R62, R64), which tables
may be a `PERM` (40_bus_sampler.md R89), which page layouts are possible (20_memory.md R47). The operand of an
operation is 12 bits wide by its type, so every `Instr` is well formed (R63). -/

namespace Sys2Proof

/-- One row of the opcode map: a word `w` selects the row when `w &&& mask = value` (30_encoding.md R62). -/
structure OpRow where
  /-- the operation's name -/
  mnemonic : String
  /-- the bits that select the row -/
  mask : Word
  /-- `match` of the table -/
  value : Word
deriving DecidableEq, Repr

/-- The word selects this row. -/
def OpRow.selects (r : OpRow) (w : Word) : Bool := w &&& r.mask == r.value

/-- The opcode map of 30_encoding.md R62, row by row. -/
def opcodeTable : List OpRow :=
  [ ⟨"CLKP", 0xF000#16, 0x1000#16⟩
  , ⟨"SAMP", 0xFFFF#16, 0x2000#16⟩
  , ⟨"TRST", 0xFFFF#16, 0x3000#16⟩
  , ⟨"SEEK", 0xF000#16, 0x4000#16⟩
  , ⟨"CAPT", 0xFFFF#16, 0x5000#16⟩
  , ⟨"WALK", 0xFFFF#16, 0x6000#16⟩ ]

/-- A word is legal when it matches a row of the opcode map (30_encoding.md R64). -/
def legalWord (w : Word) : Bool := opcodeTable.any fun r => r.selects w

/-- An operation is well formed when its operand is in 0..4095, which its type already says (30_encoding.md R63). -/
def Instr.wf : Instr → Bool
  | .clkp n => decide (n.toNat < 4096)
  | .seek a => decide (a.toNat < 4096)
  | .samp => true
  | .trst => true
  | .capt => true
  | .walk => true

/-- A list of numbers may stand as `PERM`: eight entries, a bijection on 0..7 (40_bus_sampler.md R89). -/
def permTableOk (l : List Nat) : Bool :=
  l.length == 8 && l.all (fun n => decide (n < 8)) && decide l.Nodup

/-- A page layout is possible when a page holds a whole number of records (20_memory.md R47). -/
def pageLayoutOk (pageSize recBytes : Nat) : Bool := 0 < recBytes && pageSize % recBytes == 0

end Sys2Proof
end

