-- ==== Sys2Proof/Decode.lean ====
section
/-! DEFINITION. From an operation word to an operation and back (30_encoding.md R60, R62, R63, R64). -/

namespace Sys2Proof

/-- Why a word is illegal (30_encoding.md R64). -/
inductive DecodeError where
  /-- `OPC` is 0 or 7..15 (93_implementation_defined.md U5) -/
  | illegalOpcode (opc : BitVec 4)
  /-- `ARG` is not 0 on an operation that takes no operand (93_implementation_defined.md U13) -/
  | operandNotZero (mnemonic : String) (arg : Arg)
deriving DecidableEq, Repr

/-- `OPW[15:12]` (30_encoding.md R60). -/
def opcField (w : Word) : BitVec 4 := w.extractLsb' 12 4

/-- `OPW[11:0]`, unsigned, not scaled (30_encoding.md R60, R63). -/
def argField (w : Word) : Arg := w.extractLsb' 0 12

/-- An operation without operand: legal only with `ARG = 0` (30_encoding.md R64). -/
def noOperand (i : Instr) (arg : Arg) : Except DecodeError Instr :=
  if arg = 0#12 then .ok i else .error (.operandNotZero i.mnemonic arg)

/-- The operation a word stands for (30_encoding.md R62), or why it is illegal (R64). Total on all 65536 words. -/
def decode (w : Word) : Except DecodeError Instr :=
  if opcField w = 1#4 then .ok (.clkp (argField w))
  else if opcField w = 2#4 then noOperand .samp (argField w)
  else if opcField w = 3#4 then noOperand .trst (argField w)
  else if opcField w = 4#4 then .ok (.seek (argField w))
  else if opcField w = 5#4 then noOperand .capt (argField w)
  else if opcField w = 6#4 then noOperand .walk (argField w)
  else .error (.illegalOpcode (opcField w))

/-- The opcode `OPC` of an operation (30_encoding.md R62). -/
def Instr.opcode : Instr → BitVec 4
  | .clkp _ => 1#4
  | .samp => 2#4
  | .trst => 3#4
  | .seek _ => 4#4
  | .capt => 5#4
  | .walk => 6#4

/-- The operand field `ARG` of an operation: 0 where it has none (30_encoding.md R62). -/
def Instr.operand : Instr → Arg
  | .clkp n => n
  | .samp => 0#12
  | .trst => 0#12
  | .seek a => a
  | .capt => 0#12
  | .walk => 0#12

/-- The word of an operation: `OPC` in bits 15..12, `ARG` in bits 11..0 (30_encoding.md R60). -/
def encode (i : Instr) : Word := i.opcode ++ i.operand

/-- The instruction the decoder reads from the word `w` of `nbits` bits, bit 0 the least significant; bits from `nbits`
up are 0. An operation is one 16-bit word and has no byte order (30_encoding.md R60). -/
def decodeTableWord (nbits w : Nat) : Option Instr :=
  match decode (BitVec.ofNat 16 (w % 2 ^ nbits)) with
  | .ok i => some i
  | .error _ => none

end Sys2Proof
end

