-- ==== Sys2Proof/Machine/State.lean ====
section
/-! DEFINITION. Every piece of state of the BCU (10_state.md R10) as plain data, the observer's traces (00_scope.md R6),
the model's own inputs, the reasons a step can stop, and the machine after block reset (10_state.md R34). -/

namespace Sys2Proof.Machine

/-- One bus sample, as `S` and each entry of `H` hold it (10_state.md R13). -/
structure Sample where
  /-- `al`: address bits 7..0 in an address phase, a data byte in a data phase -/
  al : Byte
  /-- `hc`: address bits 11..8 in bits 3..0, control bits in 7..4 -/
  hc : Byte
  /-- `num`: the mode flag -/
  num : Bool
  /-- `stb`: the strobe qualifier -/
  stb : Bool
deriving DecidableEq, Repr

/-- The states of the sequencer (10_state.md R26, 43_sequencer_fsm.md R130). -/
inductive SeqState where
  /-- no operation in progress -/
  | idle
  /-- low half of a pulse -/
  | plo
  /-- high half of a pulse -/
  | phi
  /-- about to sample -/
  | smp
  /-- four phases done, about to assemble the record -/
  | asm
  /-- record assembled, about to store it -/
  | store
deriving DecidableEq, Repr

/-- The 4-bit code of `ST` (10_state.md R26). Codes 6..15 are unused (log 14). -/
def SeqState.code : SeqState → BitVec 4
  | .idle => 0#4
  | .plo => 1#4
  | .phi => 2#4
  | .smp => 3#4
  | .asm => 4#4
  | .store => 5#4

/-- An event on the wires to the target (00_scope.md R6). -/
inductive LineEvent where
  | fall
  | rise
  | rstLow
  | rstHigh
  | smp
deriving DecidableEq, Repr

/-- The status of a response (30_encoding.md R66). Codes 2..14 are never produced (log 14). -/
inductive Status where
  | ok
  | okMismatch
  | errIllegalOp
deriving DecidableEq, Repr

/-- The 4-bit code of a status (30_encoding.md R66). -/
def Status.code : Status → BitVec 4
  | .ok => 0x0#4
  | .okMismatch => 0x1#4
  | .errIllegalOp => 0xF#4

/-- An event to the controller (00_scope.md R6, 30_encoding.md R66, R67). -/
inductive OutEvent where
  /-- `Rsp(status, value)` -/
  | rsp (status : Status) (value : BitVec 32)
  /-- `PageOut(bytes[0..63])` -/
  | pageOut (bytes : List Byte)
  /-- `Diag(index)`, the 13-bit walk index -/
  | diag (index : BitVec 13)
deriving DecidableEq, Repr

/-- An event of either trace: the two interleave in one global order (00_scope.md R6). -/
inductive Event where
  | line (e : LineEvent)
  | out (e : OutEvent)
deriving DecidableEq, Repr

/-- The page buffer: index and byte, indices strictly rising, no entry equal to `Page.unlisted` (20_memory.md R44,
log 2). -/
abbrev Page := List Host.Cell

/-- What an index of the page that nothing has written reads as. DESIGN CHOICE (log 2): 10_state.md R34 leaves `PAGE`
unspecified after block reset; no output ever shows it (R36). -/
def Page.unlisted : Byte := 0#8

/-- The canonical form of the page: indices strictly rising and below 64, no entry equal to `Page.unlisted`. -/
def Page.wf (p : Page) : Bool :=
  decide (p.Pairwise fun a b => a.1 < b.1) && p.all fun c => decide (c.1 < Config.pageSize) && c.2 != Page.unlisted

/-- The whole state of the machine. The first sixteen fields are the registers of 10_state.md R10 and nothing else; then
the observer's traces and mark; then the model's own inputs, which are no registers of the BCU. -/
structure State where
  /-- `CLK`, the level on the target's clock pin (10_state.md R11) -/
  clk : Bool
  /-- `RST_N`, the level on the target's reset line, active low (10_state.md R11) -/
  rstN : Bool
  /-- `S`, the last bus sample (10_state.md R13) -/
  sample : Sample
  /-- `H[0..3]`, the history file (10_state.md R14) -/
  hist : Vector Sample 4
  /-- `CYC`, pulses of the current or last SEEK (10_state.md R16) -/
  cyc : BitVec 32
  /-- `PCNT`, pulses of the burst not yet completed (10_state.md R17) -/
  pcnt : BitVec 12
  /-- `PH`, the phase of the capture (10_state.md R18) -/
  ph : Phase
  /-- `WADDR`, the walk index 0..4096 (10_state.md R19) -/
  wAddr : BitVec 13
  /-- `REC[0..3]`, the last record (10_state.md R20) -/
  record : Vector Byte 4
  /-- `MM`, the mismatch flag (10_state.md R21) -/
  mm : Bool
  /-- `CSUM`, the checksum (10_state.md R22) -/
  csum : Byte
  /-- `PIDX`, the next free index of the page, 0..64 (10_state.md R23) -/
  pIdx : BitVec 7
  /-- `PAGE[0..63]` (10_state.md R24) -/
  page : Page
  /-- `OPR`, the opcode of the operation in progress, 0 when there is none (10_state.md R25) -/
  opr : BitVec 3
  /-- `ARG`, its operand (10_state.md R25) -/
  arg : Arg
  /-- `ST`, the state of the sequencer (10_state.md R26) -/
  st : SeqState
  /-- the events of both traces in their one global order, NEWEST FIRST (00_scope.md R6, log 11) -/
  log : List Event
  /-- MODEL'S OWN, the observer's: how many events the line trace held when the last block reset was over; premise A-SCRIPT
  alone reads it (00_scope.md R8, log 13) -/
  resetMark : Nat
  /-- MODEL'S OWN: the board's parameters, which no step changes (00_scope.md R4, log 4) -/
  cfg : Config
  /-- MODEL'S OWN: operation words presented and not yet accepted, the next one first (30_encoding.md R61, log 5) -/
  ops : List Word
  /-- MODEL'S OWN: answers of the target that the environment has fixed, the next one first (00_scope.md R8, log 3) -/
  answers : List Pins
  /-- MODEL'S OWN: pin reads so far, the counter of the free values (00_scope.md R8, log 3) -/
  draws : Nat
  /-- MODEL'S OWN: a block reset is requested (60_exceptions.md R155, log 9) -/
  resetReq : Bool
deriving DecidableEq, Repr

/-- The value the model names for a sample register after block reset. DESIGN CHOICE (log 1): the spec leaves `S` and `H`
unspecified (10_state.md R34). -/
def Sample.atReset : Sample := { al := 0#8, hc := 0#8, num := false, stb := false }

/-- The machine right after a block reset at power-on (10_state.md R34, 70_reset_and_hazards.md R170). `S`, `H`, `REC`:
DESIGN CHOICE (log 1); `PAGE`: log 2; the board: opaque (log 4); no words, no fixed answers, no request: log 5, 3, 9. -/
def State.reset : State :=
  { clk := true
    rstN := true
    sample := Sample.atReset
    hist := Vector.replicate 4 Sample.atReset
    cyc := 0#32
    pcnt := 0#12
    ph := 0#2
    wAddr := 0#13
    record := Vector.replicate 4 0#8
    mm := false
    csum := Config.csumSeed
    pIdx := 0#7
    page := []
    opr := 0#3
    arg := 0#12
    st := .idle
    log := []
    resetMark := 0
    cfg := Config.board
    ops := []
    answers := []
    draws := 0
    resetReq := false }

/-- Why the model stops. The spec's machine raises no fault (60_exceptions.md R150); each of these marks a state that no
run from reset reaches and to which the spec gives no transition. All are SAFE: the model stops. -/
inductive Fault where
  /-- Raised by `step` when `ST` is not IDLE and `OPR` names no operation (0 or 7): no rule of 43_sequencer_fsm.md
  section 3 says whose transition to take (log 7). Safe. -/
  | noOperation
  /-- Raised by a meaning in a state `ST` that is on no path of its operation (43_sequencer_fsm.md R137), where R131 and
  R134 to R136 give no case for it (log 7). Safe. -/
  | noTransition
  /-- Raised by the record store of WALK when a page index would be outside 0..63, an index that does not exist
  (20_memory.md R44, log 8). Safe. -/
  | pageIndex
deriving DecidableEq, Repr

/-- Why the model gives no meaning. -/
inductive Refusal where
  /-- Raised by `exec` for an instruction that has no meaning yet. No arm raises it: every operation is modelled. Safe. -/
  | notModelled (mnemonic : String)
deriving DecidableEq, Repr

/-- The events of the wires in a list of events held newest first, oldest first (00_scope.md R6). -/
def lineEvents (log : List Event) : List LineEvent :=
  log.reverse.filterMap fun e => match e with
    | .line l => some l
    | .out _ => none

/-- The events to the controller in a list of events held newest first, oldest first (00_scope.md R6). -/
def outEvents (log : List Event) : List OutEvent :=
  log.reverse.filterMap fun e => match e with
    | .line _ => none
    | .out o => some o

/-- The line trace, oldest first (00_scope.md R6). -/
def State.lineTrace (s : State) : List LineEvent := lineEvents s.log

/-- The output trace, oldest first (00_scope.md R6). -/
def State.outTrace (s : State) : List OutEvent := outEvents s.log

/-- Both traces in their one global order, oldest first (00_scope.md R6). -/
def State.trace (s : State) : List Event := s.log.reverse

end Sys2Proof.Machine
end

