-- ==== Sys2Proof/Machine/Operands.lean ====
section
/-! DEFINITION. What the operations compute on bits: the pin remapping, the sampled address, the operand comparison
inputs and the packing of response values (40_bus_sampler.md R83, R84, R86; 30_encoding.md R63, R66). -/

namespace Sys2Proof.Machine

/-- `perm8(P, x)`: output bit `i` is input bit `P[i]` (40_bus_sampler.md R84). -/
def perm8 (p : BitPerm) (x : Byte) : Byte := BitVec.ofFnLE fun i : Fin 8 => x[p.entries[i]]

/-- `remap(p)`: from the pins to a bus sample; nothing is checked (40_bus_sampler.md R83). -/
def remap (perm : BitPerm) (p : Pins) : Sample :=
  { al := perm8 perm p.adRaw, hc := p.hc, num := p.num, stb := p.stb }

/-- `addr12(s) = (s.hc[3:0], s.al)`: the address a sample shows in an address phase (40_bus_sampler.md R86). -/
def addr12 (s : Sample) : Arg := s.hc.extractLsb' 0 4 ++ s.al

/-- The response value of SAMP: `al` in bits 7..0, `hc` in 15..8, `num` in 16, `stb` in 17 (30_encoding.md R66). -/
def packSample (s : Sample) : BitVec 32 :=
  0#14 ++ (BitVec.ofBool s.stb ++ (BitVec.ofBool s.num ++ (s.hc ++ s.al)))

/-- The response value of CAPT: `REC[0]` in bits 7..0 up to `REC[3]` in 31..24 (30_encoding.md R66). -/
def packRecord (r : Vector Byte 4) : BitVec 32 := r[3] ++ (r[2] ++ (r[1] ++ r[0]))

/-- The response value of WALK, `zext_32(CSUM)` (30_encoding.md R66). -/
def packCsum (c : Byte) : BitVec 32 := c.setWidth 32

/-- The response value of an illegal word, `zext_32(OPW)` (30_encoding.md R64, R66). -/
def packWord (w : Word) : BitVec 32 := w.setWidth 32

end Sys2Proof.Machine
end

