-- ==== Sys2Proof/Machine/Flags.lean ====
section
/-! DEFINITION. The tests and the arithmetic of the machine (43_sequencer_fsm.md R141): the match predicate, the
mismatch flag, the reserved-region test, the checksum and the counters. -/

namespace Sys2Proof.Machine

/-- `qual(s, t)`: STROBE asserted, NUM cleared, and the sampled address is `t`; the control bits take no part
(41_cycle_search.md R100). -/
def qual (s : Sample) (t : Arg) : Bool := s.stb && !s.num && addr12 s == t

/-- `MM`: the two address-high copies of a record disagree, all eight bits compared (42_dump_engine.md R112). -/
def mismatch (r : Vector Byte 4) : Bool := r[0] != r[2]

/-- The walk index is in the reserved region, which the checksum leaves out (20_memory.md R42, 42_dump_engine.md
R116). -/
def reserved (i : BitVec 13) : Bool := decide (i.toNat < Config.reservedSize)

/-- The checksum after the record of walk index `i` with data byte `d`: wrapping 8-bit addition outside the reserved
region (42_dump_engine.md R116). -/
def csumNext (i : BitVec 13) (d c : Byte) : Byte := if reserved i then c else c + d

/-- `CYC +_32 1`, wrapping (41_cycle_search.md R105). -/
def cycNext (c : BitVec 32) : BitVec 32 := c + 1#32

/-- `PCNT - 1`; no rule performs it with `PCNT = 0` (43_sequencer_fsm.md R141, log 15). -/
def pcntNext (c : BitVec 12) : BitVec 12 := c - 1#12

/-- `PH + 1`; no rule performs it with `PH = 3` (43_sequencer_fsm.md R141, log 15). -/
def phNext (p : Phase) : Phase := p + 1#2

/-- `WADDR + 1`; no rule performs it with `WADDR = 4096` (43_sequencer_fsm.md R141, log 15). -/
def wAddrNext (a : BitVec 13) : BitVec 13 := a + 1#13

/-- The status of CAPT's response (30_encoding.md R66). -/
def captStatus (mm : Bool) : Status := if mm then .okMismatch else .ok

end Sys2Proof.Machine
end

