-- ==== Sys2Proof/Machine/Ops.lean ====
section
/-! DEFINITION. The shared operations of the machine: the trace, the lines, the pin read, the page memory, the pulse
engine, record assembly and store, the end of an operation, the answer to an illegal word, block reset, and where the
next operation comes from. There is no trap entry and no return from one to model: 60_exceptions.md R155. -/

namespace Sys2Proof.Machine

/-! ## Events and lines (00_scope.md R5, R6) -/

/-- Record one event. -/
def emit (e : Event) (s : State) : State := { s with log := e :: s.log }

/-- `DriveClk(b)`: set `CLK` and record `Rise` or `Fall` (00_scope.md R5). -/
def driveClk (b : Bool) (s : State) : State :=
  emit (.line (if b then .rise else .fall)) { s with clk := b }

/-- `DriveRst(b)`: set `RST_N` and record `RstHigh` or `RstLow` (00_scope.md R5). -/
def driveRst (b : Bool) (s : State) : State :=
  emit (.line (if b then .rstHigh else .rstLow)) { s with rstN := b }

/-- `Wait(d)`: a duration passes; no state changes (00_scope.md R5, 70_reset_and_hazards.md R183, log 12). -/
def wait (_d : ℕ+) (s : State) : State := s

/-- `Respond(status, value)` (00_scope.md R5, 30_encoding.md R66). -/
def respond (status : Status) (value : BitVec 32) (s : State) : State := emit (.out (.rsp status value)) s

/-! ## The target's answers (00_scope.md R8) -/

/-- The answer of the target to the `j`-th pin read from here on, 0 the next one: a fixed answer while there is one, then
a free value (00_scope.md R8, 93_implementation_defined.md U1, log 3). -/
def State.pinsAt (s : State) (j : Nat) : Pins := s.answers.getD j (Config.freePins (s.draws + j))

/-- `Sample()`: read the pins once (event `Smp`) and replace `S` whole (40_bus_sampler.md R85). -/
def takeSample (s : State) : State :=
  emit (.line .smp)
    { s with
      sample := remap s.cfg.perm (s.pinsAt 0)
      answers := s.answers.tail
      draws := s.draws + 1 }

/-- `H[p] <- S`: one whole entry (20_memory.md R43). -/
def writeHist (p : Phase) (s : State) : State := { s with hist := s.hist.set p.toNat s.sample p.isLt }

/-- `H[p]` (20_memory.md R43). -/
def State.histAt (s : State) (p : Phase) : Sample := s.hist[p.toNat]'p.isLt

/-! ## The page buffer (20_memory.md R44) -/

/-- The byte a page holds at an index. -/
def Page.read : Page → Nat → Byte
  | [], _ => Page.unlisted
  | c :: p, i => if c.1 = i then c.2 else Page.read p i

/-- Insert a byte at its place; an entry of the same index is replaced. -/
def Page.insert : Page → Nat → Byte → Page
  | [], i, v => [(i, v)]
  | c :: p, i, v =>
    if i < c.1 then (i, v) :: c :: p
    else if c.1 = i then (i, v) :: p
    else c :: Page.insert p i v

/-- Take the entry of an index out. -/
def Page.erase : Page → Nat → Page
  | [], _ => []
  | c :: p, i => if c.1 = i then p else c :: Page.erase p i

/-- The page with one byte written; writing what an unlisted index reads as removes the entry. -/
def Page.write (p : Page) (i : Nat) (v : Byte) : Page :=
  if v = Page.unlisted then Page.erase p i else Page.insert p i v

/-- `MemRead(idx, 1)`; `none` for an index that does not exist (20_memory.md R44). -/
def State.memRead (s : State) (idx : Nat) : Option Byte :=
  if idx < Config.pageSize then some (Page.read s.page idx) else none

/-- `MemWrite(idx, 1, v)`; `none` for an index that does not exist (20_memory.md R44). -/
def memWrite (idx : Nat) (v : Byte) (s : State) : Option State :=
  if idx < Config.pageSize then some { s with page := Page.write s.page idx v } else none

/-- The payload of a `PageOut`: all 64 bytes in index order (20_memory.md R44, 30_encoding.md R67). -/
def Page.bytes (p : Page) : List Byte := (List.range Config.pageSize).map (Page.read p)

/-! ## The end of an operation and the pulse engine (43_sequencer_fsm.md R131, R133) -/

/-- `Finish(status, value)`: respond, no operation in progress, idle (43_sequencer_fsm.md R131). -/
def finish (status : Status) (value : BitVec 32) (s : State) : State :=
  { respond status value s with opr := 0#3, st := .idle }

/-- The low half of a pulse begins: `Fall`, then `PLO` (43_sequencer_fsm.md R131, R133). -/
def beginPulse (s : State) : State := { driveClk false s with st := .plo }

/-- `StartPulses(k)`, with the operation's `AfterPulses` as an argument (43_sequencer_fsm.md R131). -/
def startPulses (k : Arg) (after : State → State) (s : State) : State :=
  if k = 0#12 then after { s with pcnt := k } else beginPulse { s with pcnt := k }

/-- The transition of `PLO`: `T_LOW_US` has passed, `Rise`, then `PHI` (43_sequencer_fsm.md R133). -/
def lowHalf (s : State) : State := { driveClk true (wait s.cfg.tLowUs s) with st := .phi }

/-- The transition of `PHI`: `T_HIGH_US` has passed, one pulse fewer; the next pulse, or the operation's `AfterPulses`
(43_sequencer_fsm.md R133). -/
def highHalf (after : State → State) (s : State) : State :=
  let s1 := { wait s.cfg.tHighUs s with pcnt := pcntNext s.pcnt }
  if s1.pcnt = 0#12 then after s1 else beginPulse s1

/-- `OPR` and `ARG` latch the accepted operation (30_encoding.md R61, 43_sequencer_fsm.md R132). -/
def latch (i : Instr) (s : State) : State := { s with opr := i.opcode.extractLsb' 0 3, arg := i.operand }

/-! ## Capture, assembly, store (42_dump_engine.md R111, R112, R117, R118) -/

/-- `AfterPulses` of a capture: the next phase, or assembly after phase 3 (43_sequencer_fsm.md R131). -/
def afterPhase (s : State) : State :=
  if s.ph = 3#2 then { s with st := .asm } else { s with ph := phNext s.ph, st := .smp }

/-- The transition of `SMP` in a capture: sample, history entry of this phase, the phase's pulses
(43_sequencer_fsm.md R134). -/
def phaseSample (s : State) : State :=
  startPulses Config.pulsesPerPhase afterPhase (writeHist s.ph (takeSample s))

/-- `Assemble()`: the record and the mismatch flag (42_dump_engine.md R112, 20_memory.md R45). -/
def assemble (s : State) : State :=
  let a := s.histAt s.cfg.aPh
  let d := s.histAt s.cfg.dPh
  let r : Vector Byte 4 := #v[a.hc, a.al, d.hc, d.al]
  { s with record := r, mm := mismatch r }

/-- The four byte stores of a record at `PIDX + k`, in order (42_dump_engine.md R117); `none` when an index would be
outside the page. -/
def storeBytes (s : State) : Option State :=
  memWrite s.pIdx.toNat s.record[0] s >>= memWrite (s.pIdx.toNat + 1) s.record[1] >>=
    memWrite (s.pIdx.toNat + 2) s.record[2] >>= memWrite (s.pIdx.toNat + 3) s.record[3]

/-- `Emit(Diag(WADDR))` when the record mismatches (42_dump_engine.md R120). -/
def emitDiag (s : State) : State := if s.mm then emit (.out (.diag s.wAddr)) s else s

/-- A full page is handed off and the index returns to 0; the bytes stay (42_dump_engine.md R118, 90_conflicts.md
C5). -/
def flushPage (s : State) : State :=
  if s.pIdx.toNat = Config.pageSize then { emit (.out (.pageOut (Page.bytes s.page))) s with pIdx := 0#7 } else s

/-- The rest of a record store, after its four bytes: index, checksum, `Diag`, flush, next address, in the order of
42_dump_engine.md R114. -/
def countRecord (s : State) : State :=
  let s1 := { s with pIdx := s.pIdx + 4#7, csum := csumNext s.wAddr s.record[3] s.csum }
  let s2 := flushPage (emitDiag s1)
  { s2 with wAddr := wAddrNext s2.wAddr }

/-- WALK's registers at its start (42_dump_engine.md R115). -/
def seedWalk (s : State) : State := { s with csum := Config.csumSeed, pIdx := 0#7, wAddr := 0#13 }

/-! ## Illegal words and block reset (60_exceptions.md R151, R155) -/

/-- `IllegalOp`: the response `Rsp(0xF, zext_32(OPW))` and nothing else (60_exceptions.md R151). This is the machine's
one abnormal response; nothing is saved and nothing is returned from (R155). -/
def illegalOp (w : Word) (s : State) : State := respond .errIllegalOp (packWord w) s

/-- A line that block reset finds low goes high, with its event (60_exceptions.md R155). -/
def releaseClk (s : State) : State := if s.clk then s else driveClk true s

/-- As `releaseClk`, for the reset line (60_exceptions.md R155). -/
def releaseRst (s : State) : State := if s.rstN then s else driveRst true s

/-- Block reset, from any state: the lines go high with their events, every register to its value of 10_state.md R34; the
traces stay, no response is given (60_exceptions.md R155, 70_reset_and_hazards.md R170, 90_conflicts.md C9). The order of
the two events is the board's (log 10). The board, the words waiting and the target stay; the request is served (log 9). The observer
marks how long the line trace is (log 13). -/
def blockReset (s : State) : State :=
  let s1 := if s.cfg.riseFirst then releaseRst (releaseClk s) else releaseClk (releaseRst s)
  { State.reset with
    log := s1.log
    resetMark := s1.lineTrace.length
    cfg := s.cfg
    ops := s.ops
    answers := s.answers
    draws := s.draws }

/-! ## Where the next operation comes from (30_encoding.md R61) -/

/-- The next word presented, taken whole, and the state without it (30_encoding.md R61, 20_memory.md R51). -/
def fetch (s : State) : Option (Word × State) :=
  match s.ops with
  | [] => none
  | w :: rest => some (w, { s with ops := rest })

/-- The operation in progress, from the latches `OPR` and `ARG` (10_state.md R25); none for 0 and 7. -/
def State.running (s : State) : Option Instr :=
  if s.opr = 1#3 then some (.clkp s.arg)
  else if s.opr = 2#3 then some .samp
  else if s.opr = 3#3 then some .trst
  else if s.opr = 4#3 then some (.seek s.arg)
  else if s.opr = 5#3 then some .capt
  else if s.opr = 6#3 then some .walk
  else none

/-- The state in which `w`, of `nbits` bits, is the next word presented and the BCU is ready to accept it (log 5). -/
def presentWord (nbits w : Nat) (s : State) : State :=
  { s with ops := BitVec.ofNat 16 (w % 2 ^ nbits) :: s.ops, st := .idle, resetReq := false }

end Sys2Proof.Machine
end

