-- ==== Sys2Proof/Machine/BusSampler.lean ====
section
/-! DEFINITION. The meanings of CLKP, SAMP and TRST (40_bus_sampler.md R81, R87, R88), transition by transition of
43_sequencer_fsm.md: `exec` of an operation is its acceptance in `IDLE` and its own transition in every other state of
its path (R137, log 6). -/

namespace Sys2Proof.Machine

/-- `AfterPulses` of CLKP (43_sequencer_fsm.md R131). -/
def clkpDone (s : State) : State := finish .ok 0#32 s

/-- CLKP `n`: `n` pulses, then `Rsp(OK, 0)` (40_bus_sampler.md R81; 43_sequencer_fsm.md R132, R133). -/
def execClkp (n : Arg) (s : State) : Host.Outcome State Fault Refusal :=
  match s.st with
  | .idle => .next (startPulses n clkpDone (latch (.clkp n) s))
  | .plo => .next (lowHalf s)
  | .phi => .next (highHalf clkpDone s)
  | .smp => .fault .noTransition
  | .asm => .fault .noTransition
  | .store => .fault .noTransition

/-- SAMP: one sample, then its fields as the response (40_bus_sampler.md R87; 43_sequencer_fsm.md R132, R134). -/
def execSamp (s : State) : Host.Outcome State Fault Refusal :=
  match s.st with
  | .idle => .next { latch .samp s with st := .smp }
  | .smp => .next (finish .ok (packSample (takeSample s).sample) (takeSample s))
  | .plo => .fault .noTransition
  | .phi => .fault .noTransition
  | .asm => .fault .noTransition
  | .store => .fault .noTransition

/-- `AfterPulses` of TRST: release the reset line, respond (43_sequencer_fsm.md R131). -/
def trstDone (s : State) : State := finish .ok 0#32 (driveRst true s)

/-- TRST: reset line low, `RESET_PULSES` pulses, reset line high (40_bus_sampler.md R88; 43_sequencer_fsm.md R132,
R133). -/
def execTrst (s : State) : Host.Outcome State Fault Refusal :=
  match s.st with
  | .idle => .next (startPulses s.cfg.resetPulses trstDone (driveRst false (latch .trst s)))
  | .plo => .next (lowHalf s)
  | .phi => .next (highHalf trstDone s)
  | .smp => .fault .noTransition
  | .asm => .fault .noTransition
  | .store => .fault .noTransition

end Sys2Proof.Machine
end

