-- ==== Sys2Proof/Machine/CycleSearch.lean ====
section
/-! DEFINITION. The meaning of SEEK (41_cycle_search.md R101), transition by transition of 43_sequencer_fsm.md. -/

namespace Sys2Proof.Machine

/-- `AfterPulses` of SEEK: count the pulse, sample again (43_sequencer_fsm.md R131). -/
def seekNext (s : State) : State := { s with cyc := cycNext s.cyc, st := .smp }

/-- The strobe matcher, the `SMP` transition of SEEK: sample, then finish on a match or issue one pulse
(43_sequencer_fsm.md R134). -/
def seekSample (s : State) : State :=
  let s1 := takeSample s
  if qual s1.sample s1.arg then finish .ok s1.cyc s1 else startPulses 1#12 seekNext s1

/-- SEEK `a`: sample until the bus shows `a` qualified, one pulse between samples; no timeout (41_cycle_search.md R101,
R104; 43_sequencer_fsm.md R132 to R134). -/
def execSeek (a : Arg) (s : State) : Host.Outcome State Fault Refusal :=
  match s.st with
  | .idle => .next { latch (.seek a) s with cyc := 0#32, st := .smp }
  | .smp => .next (seekSample s)
  | .plo => .next (lowHalf s)
  | .phi => .next (highHalf seekNext s)
  | .asm => .fault .noTransition
  | .store => .fault .noTransition

end Sys2Proof.Machine
end

