-- ==== Sys2Proof/Machine/DumpEngine.lean ====
section
/-! DEFINITION. The meanings of CAPT and WALK (42_dump_engine.md R113, R114), transition by transition of
43_sequencer_fsm.md. -/

namespace Sys2Proof.Machine

/-- The `ASM` transition of CAPT: assemble, then respond with the record; a mismatch shows in the status alone
(43_sequencer_fsm.md R135, 60_exceptions.md R152). -/
def captAssemble (s : State) : State :=
  let s1 := assemble s
  finish (captStatus s1.mm) (packRecord s1.record) s1

/-- CAPT: four sample-and-pulse phases, then the record (42_dump_engine.md R113; 43_sequencer_fsm.md R132 to R135). -/
def execCapt (s : State) : Host.Outcome State Fault Refusal :=
  match s.st with
  | .idle => .next { latch .capt s with ph := 0#2, st := .smp }
  | .smp => .next (phaseSample s)
  | .plo => .next (lowHalf s)
  | .phi => .next (highHalf afterPhase s)
  | .asm => .next (captAssemble s)
  | .store => .fault .noTransition

/-- The end of a `STORE` transition: the walk is over at address 4096, else the next capture (43_sequencer_fsm.md
R136). -/
def walkNext (s : State) : State :=
  if s.wAddr.toNat = Config.memSize then finish .ok (packCsum s.csum) s else { s with ph := 0#2, st := .smp }

/-- The `STORE` transition of WALK (43_sequencer_fsm.md R136). A page index outside 0..63 does not exist (20_memory.md
R44, log 8). -/
def walkStore (s : State) : Host.Outcome State Fault Refusal :=
  match storeBytes s with
  | some s1 => .next (walkNext (countRecord s1))
  | none => .fault .pageIndex

/-- WALK: 4096 captures, each stored in the page, paged out and summed (42_dump_engine.md R114; 43_sequencer_fsm.md R132
to R136). -/
def execWalk (s : State) : Host.Outcome State Fault Refusal :=
  match s.st with
  | .idle => .next { seedWalk (latch .walk s) with ph := 0#2, st := .smp }
  | .smp => .next (phaseSample s)
  | .plo => .next (lowHalf s)
  | .phi => .next (highHalf afterPhase s)
  | .asm => .next { assemble s with st := .store }
  | .store => walkStore s

end Sys2Proof.Machine
end

