-- ==== Sys2Proof/Machine/Dispatch.lean ====
section
/-! DEFINITION. `exec`: one arm per operation (30_encoding.md R62), each one call of its meaning. -/

namespace Sys2Proof.Machine

def exec (i : Instr) (s : State) : Host.Outcome State Fault Refusal :=
  match i with
  | .clkp n => Sys2Proof.Machine.execClkp n s
  | .samp => Sys2Proof.Machine.execSamp s
  | .trst => Sys2Proof.Machine.execTrst s
  | .seek a => Sys2Proof.Machine.execSeek a s
  | .capt => Sys2Proof.Machine.execCapt s
  | .walk => Sys2Proof.Machine.execWalk s

end Sys2Proof.Machine
end

