-- ==== Sys2Proof/Machine/Step.lean ====
section
/-! DEFINITION. One step of the machine: one transition of the sequencer (43_sequencer_fsm.md section 3), the acceptance
of a word in `IDLE` (R132), the wait for one, or a block reset (60_exceptions.md R155). -/

namespace Sys2Proof.Machine

/-- The step in `IDLE`: accept the next word presented, answer it when it is illegal, or wait when there is none
(30_encoding.md R61, 43_sequencer_fsm.md R132, log 5). -/
def stepIdle (s : State) : Host.Outcome State Fault Refusal :=
  match fetch s with
  | none => .next s
  | some (w, s1) =>
    match decode w with
    | .ok i => exec i s1
    | .error _ => .next (illegalOp w s1)

/-- The step outside `IDLE`: the operation in progress takes its transition (43_sequencer_fsm.md R133 to R136). -/
def stepBusy (s : State) : Host.Outcome State Fault Refusal :=
  match s.running with
  | some i => exec i s
  | none => .fault .noOperation

/-- One step. A block reset that is requested comes first, from any state (60_exceptions.md R155, log 9). -/
def step (s : State) : Host.Outcome State Fault Refusal :=
  if s.resetReq then .next (blockReset s)
  else if s.st = .idle then stepIdle s
  else stepBusy s

/-- `s` with the word `w` of `nbits` bits as the next word the controller presents and the BCU ready to accept it: the
BCU fetches nothing itself (10_state.md R30; log 5). -/
def State.withFetchWord (s : State) (nbits w : Nat) : State := presentWord nbits w s

end Sys2Proof.Machine
end

