-- ==== Sys2Proof/Machine/OperationRules.lean ====
section
/-! DEFINITION. The operation rules as the loop programs the spec gives (40_bus_sampler.md, 41_cycle_search.md,
42_dump_engine.md): the normative level, which the micro-step machine must agree with (43_sequencer_fsm.md R140). Nothing
here is used by `exec` or `step`. The rules do not mention `OPR`, `ARG` and `ST`, and so do not change them. -/

namespace Sys2Proof.Machine

/-- One turn of the pulse loop: low, wait, high, wait, one pulse fewer (40_bus_sampler.md R80). -/
def rulePulse (s : State) : State :=
  let s1 := wait s.cfg.tHighUs (driveClk true (wait s.cfg.tLowUs (driveClk false s)))
  { s1 with pcnt := pcntNext s1.pcnt }

/-- `k` turns of the pulse loop. -/
def rulePulseLoop : Nat → State → State
  | 0, s => s
  | k + 1, s => rulePulseLoop k (rulePulse s)

/-- `Pulses(k)` (40_bus_sampler.md R80). -/
def rulePulses (k : Arg) (s : State) : State := rulePulseLoop k.toNat { s with pcnt := k }

/-- CLKP as a loop program (40_bus_sampler.md R81). -/
def ruleClkp (n : Arg) (s : State) : State := respond .ok 0#32 (rulePulses n s)

/-- SAMP as a program (40_bus_sampler.md R87). -/
def ruleSamp (s : State) : State := respond .ok (packSample (takeSample s).sample) (takeSample s)

/-- TRST as a loop program (40_bus_sampler.md R88). -/
def ruleTrst (s : State) : State :=
  respond .ok 0#32 (driveRst true (rulePulses s.cfg.resetPulses (driveRst false s)))

/-- Where a loop program that need not end stands after a bound on its turns: over, or still going, with the state and
traces it has then (43_sequencer_fsm.md R140 compares the traces of both). -/
inductive LoopResult where
  /-- the program is over -/
  | ended (s : State)
  /-- the bound is spent and the program goes on from here -/
  | going (s : State)
deriving DecidableEq, Repr

/-- The loop of SEEK with a bound on its turns: `going` when the bound is spent without a match, never a made-up response
(41_cycle_search.md R101, 93_implementation_defined.md U8). -/
def ruleSeekLoop : Nat → Arg → State → LoopResult
  | 0, _, s => .going s
  | fuel + 1, t, s =>
    let s1 := takeSample s
    if qual s1.sample t then .ended (respond .ok s1.cyc s1)
    else
      let s2 := rulePulses 1#12 s1
      ruleSeekLoop fuel t { s2 with cyc := cycNext s2.cyc }

/-- SEEK as a loop program, at most `fuel` samples (41_cycle_search.md R101). -/
def ruleSeek (fuel : Nat) (t : Arg) (s : State) : LoopResult := ruleSeekLoop fuel t { s with cyc := 0#32 }

/-- One phase of a capture: the sample into its history entry, then the phase's pulses (42_dump_engine.md R111). -/
def rulePhase (s : State) : State := rulePulses Config.pulsesPerPhase (writeHist s.ph (takeSample s))

/-- The next phase. -/
def ruleNextPhase (s : State) : State := { s with ph := phNext s.ph }

/-- `Capture()` (42_dump_engine.md R111). -/
def ruleCapture (s : State) : State :=
  let s0 := rulePhase { s with ph := 0#2 }
  let s1 := rulePhase (ruleNextPhase s0)
  let s2 := rulePhase (ruleNextPhase s1)
  let s3 := rulePhase (ruleNextPhase s2)
  assemble s3

/-- CAPT as a program (42_dump_engine.md R113). -/
def ruleCapt (s : State) : State :=
  let s1 := ruleCapture s
  respond (captStatus s1.mm) (packRecord s1.record) s1

/-- One turn of the walk: capture, store, count (42_dump_engine.md R114); `none` when a page index would not exist. -/
def ruleRecord (s : State) : Option State := (storeBytes (ruleCapture s)).map countRecord

/-- `k` turns of the walk. -/
def ruleWalkLoop : Nat → State → Option State
  | 0, s => some s
  | k + 1, s => ruleRecord s >>= ruleWalkLoop k

/-- WALK as a loop program: `WADDR` runs from 0 until it is 4096 (42_dump_engine.md R114). -/
def ruleWalk (s : State) : Option State :=
  (ruleWalkLoop Config.memSize (seedWalk s)).map fun s1 => respond .ok (packCsum s1.csum) s1

/-! ## What a capture and a walk compute from the target's answers -/

/-- The sample the `j`-th pin read from here on would give. -/
def State.sampleAt (s : State) (j : Nat) : Sample := remap s.cfg.perm (s.pinsAt j)

/-- The record of the capture whose first sample is the `j`-th pin read from here on (42_dump_engine.md R112). -/
def State.recordAt (s : State) (j : Nat) : Vector Byte 4 :=
  let a := s.sampleAt (j + s.cfg.aPh.toNat)
  let d := s.sampleAt (j + s.cfg.dPh.toNat)
  #v[a.hc, a.al, d.hc, d.al]

/-- Record `i` of a walk that starts here: its samples are the pin reads `4i .. 4i+3` (42_dump_engine.md R111, R114). -/
def State.walkRecord (s : State) (i : Nat) : Vector Byte 4 := s.recordAt (4 * i)

/-- The dump-stream bytes of the records `0 .. n-1` of a walk that starts here (20_memory.md R46). -/
def State.dumpStream (s : State) (n : Nat) : List Byte := (List.range n).flatMap fun i => (s.walkRecord i).toList

/-- Page `p` of a walk that starts here: its 16 records in order (20_memory.md R46). -/
def State.walkPage (s : State) (p : Nat) : List Byte :=
  (List.range 16).flatMap fun k => (s.walkRecord (16 * p + k)).toList

/-- The checksum after the records `0 .. n-1` of a walk that starts here (42_dump_engine.md R115, R116). -/
def State.walkCsum (s : State) (n : Nat) : Byte :=
  (List.range n).foldl (fun c i => csumNext (BitVec.ofNat 13 i) (s.walkRecord i)[3] c) Config.csumSeed

/-- The output events of record `i` of a walk that starts here: `Diag` on a mismatch, then `PageOut` when the page is full
(42_dump_engine.md R118, R120; 60_exceptions.md R154). -/
def State.walkEvents (s : State) (i : Nat) : List OutEvent :=
  (if mismatch (s.walkRecord i) then [.diag (BitVec.ofNat 13 i)] else []) ++
    (if i % 16 = 15 then [.pageOut (s.walkPage (i / 16))] else [])

/-- The sample of the `j`-th pin read from here on matches `t`: SEEK would stop on it (41_cycle_search.md R102). -/
def State.matchesAt (s : State) (t : Arg) (j : Nat) : Bool := qual (s.sampleAt j) t

end Sys2Proof.Machine
end

