-- ==== Sys2Proof/Safety.lean ====
section
/-! DEFINITION. What claims about runs are stated in: several steps, the invariant of the machine (10_state.md R35), the
order of line events, and the two premises on the target (00_scope.md R8). -/

namespace Sys2Proof.Machine

/-- `n` steps, stopping at the first fault or refusal. -/
def steps : Nat → State → Host.Outcome State Fault Refusal
  | 0, s => .next s
  | n + 1, s =>
    match step s with
    | .next s1 => steps n s1
    | .fault r => .fault r
    | .refused r => .refused r

/-- `t` is the state `n` steps after `s`. -/
abbrev runsTo (n : Nat) (s t : State) : Prop := steps n s = .next t

/-- Some number of steps leads from `s` to `t`. -/
def reaches (s t : State) : Prop := ∃ n, runsTo n s t

/-- One event after lines at the levels `(CLK, RST_N)`: the levels it leaves, or `none` when it is out of order: a `Fall`
only from high, a `Rise` only from low, the same for the reset line, a `Smp` only with `CLK` high (10_state.md R35). -/
def lineNext (lv : Option (Bool × Bool)) (e : LineEvent) : Option (Bool × Bool) :=
  match lv, e with
  | some (true, r), .fall => some (false, r)
  | some (false, r), .rise => some (true, r)
  | some (c, true), .rstLow => some (c, false)
  | some (c, false), .rstHigh => some (c, true)
  | some (true, r), .smp => some (true, r)
  | _, _ => none

/-- The levels a line trace leaves, starting from both lines high; `none` when an event is out of order. -/
def lineLevels (l : List LineEvent) : Option (Bool × Bool) := l.foldl lineNext (some (true, true))

/-- The operations that issue pulses (43_sequencer_fsm.md R131): all but SAMP. -/
def pulsing (opr : BitVec 3) : Bool := opr == 1#3 || opr == 3#3 || opr == 4#3 || opr == 5#3 || opr == 6#3

/-- The page index and the walk index of a WALK in progress, before a record is stored: 16 records a page
(20_memory.md R46, 42_dump_engine.md R117). Every other operation leaves the index at 0 (10_state.md R35). -/
def walkIndexOk (s : State) : Prop :=
  (s.opr = 6#3 → s.wAddr.toNat < Config.memSize ∧ s.pIdx.toNat = 4 * (s.wAddr.toNat % 16)) ∧
    (s.opr ≠ 6#3 → s.pIdx = 0#7)

/-- What holds in the middle of a pulse of a burst (43_sequencer_fsm.md R133): the burst is not over, the reset line is
low exactly in TRST, and SEEK, CAPT and WALK issue one pulse at a time. -/
def pulseOk (s : State) : Prop :=
  pulsing s.opr = true ∧ s.pcnt ≠ 0#12 ∧ s.rstN = (s.opr != 3#3) ∧
    (s.opr ≠ 1#3 → s.opr ≠ 3#3 → s.pcnt = 1#12)

/-- The invariant of the sequencer (10_state.md R35, 43_sequencer_fsm.md R130), for every state of `ST`; the page is in
canonical form; the line trace is in order, its levels are those of the lines, and the last block reset lies in it. -/
structure Inv (s : State) : Prop where
  page : Page.wf s.page = true
  lines : lineLevels s.lineTrace = some (s.clk, s.rstN)
  index : walkIndexOk s
  idle : s.st = .idle → s.clk = true ∧ s.rstN = true ∧ s.pcnt = 0#12 ∧ s.opr = 0#3
  plo : s.st = .plo → s.clk = false ∧ pulseOk s
  phi : s.st = .phi → s.clk = true ∧ pulseOk s
  smp : s.st = .smp → s.clk = true ∧ s.rstN = true ∧ s.pcnt = 0#12 ∧
    (s.opr = 2#3 ∨ s.opr = 4#3 ∨ s.opr = 5#3 ∨ s.opr = 6#3)
  asm : s.st = .asm → s.clk = true ∧ s.rstN = true ∧ s.pcnt = 0#12 ∧ s.ph = 3#2 ∧ (s.opr = 5#3 ∨ s.opr = 6#3)
  store : s.st = .store → s.clk = true ∧ s.rstN = true ∧ s.pcnt = 0#12 ∧ s.ph = 3#2 ∧ s.opr = 6#3
  mark : s.resetMark ≤ s.lineTrace.length

/-- The BCU between operations, with the word of `i` the next one presented and no block reset requested: the premise of a
claim about one whole operation (30_encoding.md R61, 43_sequencer_fsm.md R140). -/
structure Ready (i : Instr) (rest : List Word) (s : State) : Prop where
  inv : Inv s
  idle : s.st = .idle
  ops : s.ops = encode i :: rest
  noReset : s.resetReq = false

/-- The state in which operation `i` is over, from what its loop program leaves: its word accepted, no operation in
progress, `ARG` still latched, idle (43_sequencer_fsm.md R140: the loop programs do not mention `OPR`, `ARG`, `ST`). -/
def atEnd (i : Instr) (rest : List Word) (s : State) : State :=
  { s with ops := rest, opr := 0#3, arg := i.operand, st := .idle }

/-- The number of `Rise` events of a line trace since its last `RstHigh`, all of them when there is none. -/
def pulseIndex : List LineEvent → Nat :=
  List.foldl (fun k e => match e with
    | .rise => k + 1
    | .rstHigh => 0
    | .fall => k
    | .rstLow => k
    | .smp => k) 0

/-- The index of A-SCRIPT (00_scope.md R8): the number of `Rise` events since the most recent `RstHigh`, or since block reset
when the line trace has none (log 13). -/
def State.scriptIndex (s : State) : Nat :=
  pulseIndex (if .rstHigh ∈ s.lineTrace then s.lineTrace else s.lineTrace.drop s.resetMark)

/-- The clock and reset events of a line trace, without the samples. -/
def withoutSamples (l : List LineEvent) : List LineEvent := l.filter fun e => e != .smp

/-- The next step reads the pins: only in `SMP` (43_sequencer_fsm.md R134). -/
def readsPins (s : State) : Prop := s.resetReq = false ∧ s.st = .smp

/-- Premise A-SYNC on the target (00_scope.md R8): over the whole run from `s`, the answer to each pin read is a function
of the clock and reset events so far and nothing else. -/
def ASync (s : State) : Prop :=
  ∃ f : List LineEvent → Pins, ∀ t, reaches s t → readsPins t → t.pinsAt 0 = f (withoutSamples t.lineTrace)

/-- Premise A-SCRIPT on the target (00_scope.md R8): A-SYNC, and over the whole run from `s` the answer to each pin read is the
script's at the index of that moment. -/
def AScript (script : Nat → Pins) (s : State) : Prop :=
  ASync s ∧ ∀ t, reaches s t → readsPins t → t.pinsAt 0 = script t.scriptIndex

/-- Two states that agree on everything but the registers whose reset values the spec leaves unspecified: `S`, `H`, `REC`
and `PAGE` (10_state.md R34, R36). -/
def agreeButUnspecified (s t : State) : Prop :=
  t = { s with sample := t.sample, hist := t.hist, record := t.record, page := t.page }

/-- The states of `ST` on the path of an operation (43_sequencer_fsm.md R137). -/
def onPath : Instr → SeqState → Bool
  | .clkp _, st => st == .idle || st == .plo || st == .phi
  | .samp, st => st == .idle || st == .smp
  | .trst, st => st == .idle || st == .plo || st == .phi
  | .seek _, st => st == .idle || st == .smp || st == .plo || st == .phi
  | .capt, st => st != .store
  | .walk, _ => true

/-- The line events of `n` pulses (40_bus_sampler.md R80). -/
def pulseEvents (n : Nat) : List LineEvent := (List.replicate n [.fall, .rise]).flatten

/-- The line events of `n` capture phases: a sample, then one pulse (42_dump_engine.md R111). -/
def phaseEvents (n : Nat) : List LineEvent := (List.replicate n [.smp, .fall, .rise]).flatten

/-- The line events of a SEEK that answers `c`: `Smp (Fall Rise Smp)^c` (41_cycle_search.md R101). -/
def seekEvents (c : Nat) : List LineEvent := .smp :: (List.replicate c [.fall, .rise, .smp]).flatten

/-- The payloads of the `PageOut` events of an output trace, joined in order (20_memory.md R46). -/
def pageStream (l : List OutEvent) : List Byte :=
  l.flatMap fun e => match e with
    | .pageOut b => b
    | .diag _ => []
    | .rsp _ _ => []

/-- An output trace without a `Diag` event. -/
def noDiag (l : List OutEvent) : Prop := ∀ i, OutEvent.diag i ∉ l

end Sys2Proof.Machine
end

