-- ==== Sys2Proof/Certificates/Slice0/Obligations.lean ====
section
/-! DEFINITION. The statements for the provers. Where a rule of the spec carries a mark (a decision of 92_eei_decisions.md,
a derivation) or the model makes a choice (notes/assumptions/), the docstring says so. -/

open Sys2Proof Sys2Proof.Machine

/-! ## Encoding (30_encoding.md) -/

/-- A few words written out from the table of 30_encoding.md section 2 decode to their operations, and three illegal words
are rejected by name (the encoding is the spec's decision D2, D4). -/
def Obligations.DecodeSpecWords : Prop :=
  decode 0x1003#16 = .ok (.clkp 3#12) ∧ decode 0x1FFF#16 = .ok (.clkp 4095#12) ∧ decode 0x2000#16 = .ok .samp ∧
    decode 0x3000#16 = .ok .trst ∧ decode 0x4005#16 = .ok (.seek 5#12) ∧ decode 0x5000#16 = .ok .capt ∧
    decode 0x6000#16 = .ok .walk ∧ decode 0x7000#16 = .error (.illegalOpcode 7#4) ∧
    decode 0x0FFF#16 = .error (.illegalOpcode 0#4) ∧ decode 0x5ABC#16 = .error (.operandNotZero "CAPT" 0xABC#12)

/-- Decode and encode agree in both directions, over every operation with every operand and over every word: no bit of an
encoding is dropped, and no second word decodes to the same operation. -/
def Obligations.DecodeEncodeAgree : Prop :=
  (∀ i : Instr, decode (encode i) = .ok i) ∧ ∀ (w : Word) (i : Instr), decode w = .ok i → encode i = w

/-- The illegal words are exactly those of 30_encoding.md section 4 (decision D4): `OPC` 0, `OPC` 7 to 15, or a non-zero
`ARG` on SAMP, TRST, CAPT, WALK; and the decoder accepts exactly the legal ones. -/
def Obligations.IllegalWordsAreTheSpecsClasses : Prop :=
  ∀ w : Word,
    (legalWord w = false ↔
      opcField w = 0#4 ∨ 7 ≤ (opcField w).toNat ∨
        ((opcField w = 2#4 ∨ opcField w = 3#4 ∨ opcField w = 5#4 ∨ opcField w = 6#4) ∧ argField w ≠ 0#12)) ∧
      (legalWord w = true ↔ ∃ i, decode w = .ok i)

/-- The decoder agrees with the table row by row: the operation a word decodes to is the one row of the table that the word
selects. -/
def Obligations.DecodedWordSelectsItsRowOnly : Prop :=
  ∀ (w : Word) (i : Instr), decode w = .ok i →
    ∀ r ∈ opcodeTable, (r.selects w = true ↔ r.mnemonic = i.mnemonic)

/-! ## The step (43_sequencer_fsm.md, 30_encoding.md R61) -/

/-- In `IDLE` the step takes the next word presented and runs the operation it decodes to. -/
def Obligations.StepRunsPresentedOperation : Prop :=
  ∀ (s : State) (w : Word) (rest : List Word) (i : Instr),
    s.resetReq = false → s.st = .idle → s.ops = w :: rest → decode w = .ok i →
      step s = exec i { s with ops := rest }

/-- Outside `IDLE` the step runs the operation in progress, which `OPR` and `ARG` latch (30_encoding.md section 1); with 0
or 7 in `OPR`, which no run reaches, it stops by name (the stop is the model's choice, log 7). -/
def Obligations.StepContinuesLatchedOperation : Prop :=
  ∀ s : State, s.resetReq = false → s.st ≠ .idle →
    (s.opr = 1#3 → step s = exec (.clkp s.arg) s) ∧ (s.opr = 2#3 → step s = exec .samp s) ∧
      (s.opr = 3#3 → step s = exec .trst s) ∧ (s.opr = 4#3 → step s = exec (.seek s.arg) s) ∧
      (s.opr = 5#3 → step s = exec .capt s) ∧ (s.opr = 6#3 → step s = exec .walk s) ∧
      (s.opr = 0#3 ∨ s.opr = 7#3 → step s = .fault .noOperation)

/-- An illegal word is answered `Rsp(0xF, zext_32(OPW))` and changes no register and no line; only the word is gone
(60_exceptions.md section 1, decision D4). -/
def Obligations.IllegalWordIsAnsweredOnly : Prop :=
  ∀ (s : State) (w : Word) (rest : List Word),
    s.resetReq = false → s.st = .idle → s.ops = w :: rest → legalWord w = false →
      Status.errIllegalOp.code = 0xF#4 ∧
        step s = .next { s with ops := rest, log := .out (.rsp .errIllegalOp (w.setWidth 32)) :: s.log }

/-- In `IDLE` with no word presented the BCU waits, unchanged (the model's reading, log 5). -/
def Obligations.IdleWaitsForWord : Prop :=
  ∀ s : State, s.resetReq = false → s.st = .idle → s.ops = [] → step s = .next s

/-- While an operation runs, the words presented wait, unseen; in `IDLE` exactly one is consumed (decision D30). -/
def Obligations.BusyStepAcceptsNoWord : Prop :=
  ∀ s t : State, step s = .next t → s.resetReq = false →
    (s.st ≠ .idle → t.ops = s.ops) ∧ (s.st = .idle → t.ops = s.ops.tail)

/-! ## The transitions, as 43_sequencer_fsm.md gives them -/

/-- R132: what the acceptance of each operation does, the whole of `CLKP #0` and of TRST without pulses included; and that
a presented word is accepted so, or answered as illegal. -/
def Obligations.AcceptanceTransitions : Prop :=
  ∀ s : State, s.st = .idle →
    (∀ n : Arg, exec (.clkp n) s = .next
      (if n = 0#12 then
        { s with opr := 0#3, arg := n, pcnt := 0#12, st := .idle, log := .out (.rsp .ok 0#32) :: s.log }
      else { s with opr := 1#3, arg := n, pcnt := n, clk := false, st := .plo, log := .line .fall :: s.log })) ∧
    exec .samp s = .next { s with opr := 2#3, arg := 0#12, st := .smp } ∧
    exec .trst s = .next
      (if s.cfg.resetPulses = 0#12 then
        { s with
          opr := 0#3, arg := 0#12, pcnt := 0#12, rstN := true, st := .idle
          log := .out (.rsp .ok 0#32) :: .line .rstHigh :: .line .rstLow :: s.log }
      else
        { s with
          opr := 3#3, arg := 0#12, pcnt := s.cfg.resetPulses, rstN := false, clk := false, st := .plo
          log := .line .fall :: .line .rstLow :: s.log }) ∧
    (∀ a : Arg, exec (.seek a) s = .next { s with opr := 4#3, arg := a, cyc := 0#32, st := .smp }) ∧
    exec .capt s = .next { s with opr := 5#3, arg := 0#12, ph := 0#2, st := .smp } ∧
    exec .walk s = .next
      { s with
        opr := 6#3, arg := 0#12, csum := 0x81#8, pIdx := 0#7, wAddr := 0#13, ph := 0#2, st := .smp } ∧
    ∀ (w : Word) (rest : List Word), s.resetReq = false → s.ops = w :: rest →
      (∀ i, decode w = .ok i → step s = exec i { s with ops := rest }) ∧
        (legalWord w = false →
          step s = .next { s with ops := rest, log := .out (.rsp .errIllegalOp (w.setWidth 32)) :: s.log })

/-- R133 (with R131 for the end of a burst): the low half of a pulse, the high half with pulses to come, and the end of the
burst of each pulsing operation: CLKP and TRST complete there. The subtraction is made with `PCNT` at least 1, as R133 says
(the other case is `OutOfRangeTransitions`). `PLO` is entered only with pulses to issue, and from a state of the invariant
`IDLE` is entered only with none left. -/
def Obligations.PulseEngineTransitions : Prop :=
  ∀ s : State,
    (s.st = .plo →
      ∀ i : Instr, i ≠ .samp → exec i s = .next { s with clk := true, st := .phi, log := .line .rise :: s.log }) ∧
    (s.st = .phi → s.pcnt ≠ 0#12 → s.pcnt - 1#12 ≠ 0#12 →
      ∀ i : Instr, i ≠ .samp → exec i s = .next
        { s with pcnt := s.pcnt - 1#12, clk := false, st := .plo, log := .line .fall :: s.log }) ∧
    (s.st = .phi → s.pcnt - 1#12 = 0#12 →
      (∀ n : Arg, exec (.clkp n) s = .next
        { s with pcnt := 0#12, opr := 0#3, st := .idle, log := .out (.rsp .ok 0#32) :: s.log }) ∧
      exec .trst s = .next
        { s with
          pcnt := 0#12, rstN := true, opr := 0#3, st := .idle
          log := .out (.rsp .ok 0#32) :: .line .rstHigh :: s.log } ∧
      (∀ a : Arg, exec (.seek a) s = .next { s with pcnt := 0#12, cyc := s.cyc + 1#32, st := .smp }) ∧
      ∀ i : Instr, i = .capt ∨ i = .walk →
        exec i s = .next
          (if s.ph = 3#2 then { s with pcnt := 0#12, st := .asm }
          else { s with pcnt := 0#12, ph := s.ph + 1#2, st := .smp })) ∧
    (∀ (i : Instr) (t : State), exec i s = .next t → t.st = .plo → t.pcnt ≠ 0#12) ∧
    ∀ t : State, Inv s → step s = .next t → t.st = .idle → t.pcnt = 0#12

/-- R134: the sample state. SAMP completes; SEEK completes on a match and issues one pulse otherwise; CAPT and WALK write
the history entry of the phase and begin its pulse. -/
def Obligations.SampleTransitions : Prop :=
  ∀ s : State, s.st = .smp →
    let p := remap s.cfg.perm (s.pinsAt 0)
    exec .samp s = .next
      { s with
        sample := p, answers := s.answers.tail, draws := s.draws + 1, opr := 0#3, st := .idle
        log := .out (.rsp .ok (packSample p)) :: .line .smp :: s.log } ∧
    (∀ a : Arg, qual p s.arg = true → exec (.seek a) s = .next
      { s with
        sample := p, answers := s.answers.tail, draws := s.draws + 1, opr := 0#3, st := .idle
        log := .out (.rsp .ok s.cyc) :: .line .smp :: s.log }) ∧
    (∀ a : Arg, qual p s.arg = false → exec (.seek a) s = .next
      { s with
        sample := p, answers := s.answers.tail, draws := s.draws + 1, pcnt := 1#12, clk := false, st := .plo
        log := .line .fall :: .line .smp :: s.log }) ∧
    ∀ i : Instr, i = .capt ∨ i = .walk → exec i s = .next
      { s with
        sample := p, answers := s.answers.tail, draws := s.draws + 1, hist := s.hist.set s.ph.toNat p s.ph.isLt
        pcnt := 1#12, clk := false, st := .plo, log := .line .fall :: .line .smp :: s.log }

/-- R135: the assemble state. The record is the four bytes of the two phase samples, `MM` says whether its two high bytes
disagree; CAPT completes with the record and that status, WALK goes on to store. -/
def Obligations.AssembleTransitions : Prop :=
  ∀ s : State, s.st = .asm →
    let a := s.hist[s.cfg.aPh.toNat]'s.cfg.aPh.isLt
    let d := s.hist[s.cfg.dPh.toNat]'s.cfg.dPh.isLt
    exec .capt s = .next
      { s with
        record := #v[a.hc, a.al, d.hc, d.al], mm := a.hc != d.hc, opr := 0#3, st := .idle
        log := .out (.rsp (if a.hc != d.hc then .okMismatch else .ok) (d.al ++ (d.hc ++ (a.al ++ a.hc)))) :: s.log } ∧
    exec .walk s = .next { s with record := #v[a.hc, a.al, d.hc, d.al], mm := a.hc != d.hc, st := .store }

/-- R136: the store state, in its order: four stores, index, checksum, `Diag`, `PageOut`, next address; WALK completes at
address 4096. `PIDX` and `WADDR` are in the ranges that 43_sequencer_fsm.md R141 gives for this transition (the other cases
are `OutOfRangeTransitions`). -/
def Obligations.StoreTransition : Prop :=
  ∀ s : State, s.st = .store → s.pIdx.toNat ≤ 60 → s.wAddr.toNat ≤ 4095 →
    let i := s.pIdx.toNat
    let page := (((Page.write s.page i s.record[0]).write (i + 1) s.record[1]).write (i + 2) s.record[2]).write
      (i + 3) s.record[3]
    let csum := if 128 ≤ s.wAddr.toNat then s.csum + s.record[3] else s.csum
    let full := (s.pIdx + 4#7).toNat = 64
    let last := (s.wAddr + 1#13).toNat = 4096
    exec .walk s = .next
      { s with
        page := page
        csum := csum
        pIdx := if full then 0#7 else s.pIdx + 4#7
        wAddr := s.wAddr + 1#13
        ph := if last then s.ph else 0#2
        opr := if last then 0#3 else s.opr
        st := if last then .idle else .smp
        log :=
          (if last then [Event.out (.rsp .ok (csum.setWidth 32))] else []) ++
            ((if full then [Event.out (.pageOut (Page.bytes page))] else []) ++
              ((if s.mm then [Event.out (.diag s.wAddr)] else []) ++ s.log)) }

/-- What the model does in states that no run reaches, where 43_sequencer_fsm.md R141 says that the arithmetic is never
performed: the model's choices, not the spec's. In `PHI` with `PCNT` 0 the count wraps and a pulse begins (log 15); in
`STORE` a page index outside 0..63 stops WALK by name (log 8), and a walk index past 4095 goes on with the next, which wraps
(log 15). -/
def Obligations.OutOfRangeTransitions : Prop :=
  ∀ s : State,
    (s.st = .phi → s.pcnt = 0#12 → ∀ i : Instr, i ≠ .samp →
      exec i s = .next { s with pcnt := 0xFFF#12, clk := false, st := .plo, log := .line .fall :: s.log }) ∧
    (s.st = .store → 60 < s.pIdx.toNat → exec .walk s = .fault .pageIndex) ∧
    (s.st = .store → s.pIdx.toNat ≤ 60 → 4095 < s.wAddr.toNat →
      ∃ t, exec .walk s = .next t ∧ t.wAddr = s.wAddr + 1#13 ∧ t.st = .smp ∧ t.opr = s.opr)

/-- On the state path of its operation (43_sequencer_fsm.md R137) `exec` answers a next state; off it, it stops by name
(the stop is the model's choice, log 7). -/
def Obligations.ExecAnswersNextOnItsPath : Prop :=
  ∀ (i : Instr) (s : State),
    (onPath i s.st = true → (s.st = .store → s.pIdx.toNat + 3 < 64) → ∃ t, exec i s = .next t) ∧
      (onPath i s.st = false → exec i s = .fault .noTransition)

/-! ## Whole operations -/

/-- R81: from `IDLE`, CLKP `n` issues exactly `n` pulses and responds `Rsp(OK, 0)`; every register but `ARG` is as before
(`CLK` and `PCNT` end where they began, at 1 and 0), and no sample is taken. -/
def Obligations.ClkpIssuesExactlyItsPulses : Prop :=
  ∀ (s : State) (n : Arg) (rest : List Word), Ready (.clkp n) rest s →
    ∃ t, runsTo (2 * n.toNat + 1) s t ∧ t = { s with ops := rest, arg := n, log := t.log } ∧
      t.clk = true ∧ t.pcnt = 0#12 ∧
      t.trace = s.trace ++ (pulseEvents n.toNat).map .line ++ [.out (.rsp .ok 0#32)]

/-- SAMP takes one sample and responds with its fields; it issues no pulse and writes `S` alone (40_bus_sampler.md
section 4; that `H` is not written is decision D20, the packing decision D3). -/
def Obligations.SampTakesOneSample : Prop :=
  ∀ (s : State) (rest : List Word), Ready .samp rest s →
    ∃ t, runsTo 2 s t ∧
      t = { s with
            ops := rest, arg := 0#12, sample := s.sampleAt 0, answers := s.answers.tail, draws := s.draws + 1
            log := t.log } ∧
      t.trace = s.trace ++ [.line .smp, .out (.rsp .ok (packSample (s.sampleAt 0)))]

/-- TRST pulls the reset line low, issues `RESET_PULSES` pulses, releases the line and responds `Rsp(OK, 0)`; no other
register changes (40_bus_sampler.md section 5; the last clause is decision D31). -/
def Obligations.TrstResetsTheTarget : Prop :=
  ∀ (s : State) (rest : List Word), Ready .trst rest s →
    ∃ t, runsTo (2 * s.cfg.resetPulses.toNat + 1) s t ∧ t = { s with ops := rest, arg := 0#12, log := t.log } ∧
      t.rstN = true ∧ t.clk = true ∧ t.pcnt = 0#12 ∧
      t.trace = s.trace ++ [.line .rstLow] ++ (pulseEvents s.cfg.resetPulses.toNat).map .line ++
        [.line .rstHigh, .out (.rsp .ok 0#32)]

/-- SEEK answers the least `c` whose sample matches, modulo 2^32 (41_cycle_search.md sections 2 and 3; the wrap is decision
D16): `c + 1` samples, `c` pulses, the matching sample in `S`, every other register but `ARG` and `CYC` as before. -/
def Obligations.SeekAnswersTheFirstMatch : Prop :=
  ∀ (s : State) (a : Arg) (rest : List Word) (c : Nat), Ready (.seek a) rest s →
    s.matchesAt a c = true → (∀ j, j < c → s.matchesAt a j = false) →
      ∃ t, runsTo (3 * c + 2) s t ∧
        t = { s with
              ops := rest, arg := a, cyc := BitVec.ofNat 32 c, sample := s.sampleAt c
              answers := s.answers.drop (c + 1), draws := s.draws + (c + 1), log := t.log } ∧
        t.trace = s.trace ++ (seekEvents c).map .line ++ [.out (.rsp .ok (BitVec.ofNat 32 c))]

/-- As long as no sample matches, a SEEK goes on: after its first `n` samples and the pulses after them the BCU is about to
sample again, `CYC` is `n` modulo 2^32, the line trace is `n` times a sample and a pulse, and every register it does not name
is as before; and after any number of steps they cover it is in a next state, not in `IDLE`, no response has been given and
no word accepted. So a SEEK that never matches runs for ever (41_cycle_search.md section 3). -/
def Obligations.SeekGoesOnWithoutMatch : Prop :=
  ∀ (s : State) (a : Arg) (rest : List Word) (n : Nat), Ready (.seek a) rest s →
    (∀ j, j < n → s.matchesAt a j = false) →
      (∃ t, runsTo (3 * n + 1) s t ∧
        t = { s with
              ops := rest, opr := 4#3, arg := a, st := .smp, cyc := BitVec.ofNat 32 n
              sample := if n = 0 then s.sample else s.sampleAt (n - 1)
              answers := s.answers.drop n, draws := s.draws + n, log := t.log } ∧
        t.lineTrace = s.lineTrace ++ phaseEvents n) ∧
      ∀ m, 0 < m → m ≤ 3 * n + 1 → ∃ t, runsTo m s t ∧ t.st ≠ .idle ∧ t.outTrace = s.outTrace ∧ t.ops = rest

/-- Under premise A-SCRIPT with a script of period `p` that shows `a` qualified somewhere, SEEK answers, and its answer is
below `p` (41_cycle_search.md section 2: within one full period; the index of the script is read as log 13 says). -/
def Obligations.SeekEndsWithinOnePeriod : Prop :=
  ∀ (s : State) (a : Arg) (rest : List Word) (script : Nat → Pins) (p k : Nat), Ready (.seek a) rest s →
    AScript script s → 0 < p → (∀ j, script (j + p) = script j) → qual (remap s.cfg.perm (script k)) a = true →
      ∃ c t, c < p ∧ runsTo (3 * c + 2) s t ∧ t.st = .idle ∧
        t.outTrace = s.outTrace ++ [.rsp .ok (BitVec.ofNat 32 c)]

/-- Under premise A-SYNC a second SEEK of the same address answers 0 with one sample and no pulse
(70_reset_and_hazards.md section 4, "Seeking where you already are"). -/
def Obligations.SeekAgainAnswersZero : Prop :=
  ∀ (s : State) (a : Arg) (rest : List Word) (n : Nat) (t : State),
    Ready (.seek a) (encode (.seek a) :: rest) s → ASync s →
      0 < n → runsTo n s t → t.st = .idle → t.ops = encode (.seek a) :: rest →
        ∃ u, runsTo 2 t u ∧ u.st = .idle ∧ u.ops = rest ∧
          u.trace = t.trace ++ [.line .smp, .out (.rsp .ok 0#32)]

/-- Under premise A-SYNC two SAMPs in a row give the same response (40_bus_sampler.md section 4). -/
def Obligations.SampAgainGivesTheSameSample : Prop :=
  ∀ (s : State) (rest : List Word), Ready .samp (encode .samp :: rest) s → ASync s →
    ∃ t v, runsTo 4 s t ∧ t.st = .idle ∧ t.outTrace = s.outTrace ++ [.rsp .ok v, .rsp .ok v]

/-- Two CLKP in a row give the line trace of one burst of both counts (30_encoding.md section 3). -/
def Obligations.ClkpBurstsAddUp : Prop :=
  ∀ (s : State) (m n : Arg) (rest : List Word), Ready (.clkp m) (encode (.clkp n) :: rest) s →
    ∃ t, runsTo (2 * (m.toNat + n.toNat) + 2) s t ∧ t.st = .idle ∧ t.ops = rest ∧
      t.lineTrace = s.lineTrace ++ pulseEvents (m.toNat + n.toNat)

/-- R113: CAPT takes four samples with one pulse after each, keeps them in the history, assembles the record and answers
with it and the mismatch status; no other register but `ARG` changes. -/
def Obligations.CaptCapturesFourPhases : Prop :=
  ∀ (s : State) (rest : List Word), Ready .capt rest s →
    ∃ t, runsTo 14 s t ∧
      t = { s with
            ops := rest, arg := 0#12, ph := 3#2, sample := s.sampleAt 3
            hist := #v[s.sampleAt 0, s.sampleAt 1, s.sampleAt 2, s.sampleAt 3]
            record := s.recordAt 0, mm := (s.recordAt 0)[0] != (s.recordAt 0)[2]
            answers := s.answers.drop 4, draws := s.draws + 4, log := t.log } ∧
      t.trace = s.trace ++ (phaseEvents 4).map .line ++
        [.out (.rsp (if (s.recordAt 0)[0] = (s.recordAt 0)[2] then .ok else .okMismatch) (packRecord (s.recordAt 0)))]

/-- R114: WALK captures all 4096 records. Its whole output (a `Diag` for each mismatching record before the `PageOut` of that
record's step, a `PageOut` of the page's 16 records after every 16th, the checksum as the response), its line trace, and
every register at the end. -/
def Obligations.WalkCapturesEveryAddress : Prop :=
  ∀ (s : State) (rest : List Word), Ready .walk rest s →
    ∃ t, runsTo 57345 s t ∧
      t = { s with
            ops := rest, arg := 0#12, ph := 3#2, sample := s.sampleAt 16383
            hist := #v[s.sampleAt 16380, s.sampleAt 16381, s.sampleAt 16382, s.sampleAt 16383]
            record := s.walkRecord 4095, mm := mismatch (s.walkRecord 4095), csum := s.walkCsum 4096
            wAddr := 4096#13, pIdx := 0#7, page := t.page
            answers := s.answers.drop 16384, draws := s.draws + 16384, log := t.log } ∧
      Page.bytes t.page = s.walkPage 255 ∧
      t.lineTrace = s.lineTrace ++ phaseEvents 16384 ∧
      t.outTrace = s.outTrace ++ (List.range 4096).flatMap s.walkEvents ++
        [.rsp .ok ((s.walkCsum 4096).setWidth 32)]

/-- The round trip (42_dump_engine.md section 4, derived there): when capture `i` shows address `i` in its address phase and
`f i` as its data, the page stream is the 4096 records `(high, low, high, f i)` in order, and there is no `Diag`. -/
def Obligations.WalkRoundTrip : Prop :=
  ∀ (s : State) (rest : List Word) (f : Nat → Byte), Ready .walk rest s →
    (∀ i, i < 4096 →
      (s.sampleAt (4 * i + s.cfg.aPh.toNat)).hc = BitVec.ofNat 8 (i / 256) ∧
        (s.sampleAt (4 * i + s.cfg.aPh.toNat)).al = BitVec.ofNat 8 i ∧
        (s.sampleAt (4 * i + s.cfg.dPh.toNat)).hc = BitVec.ofNat 8 (i / 256) ∧
        (s.sampleAt (4 * i + s.cfg.dPh.toNat)).al = f i) →
      ∃ t out, runsTo 57345 s t ∧ t.outTrace = s.outTrace ++ out ∧ noDiag out ∧
        pageStream out =
          (List.range 4096).flatMap fun i => [BitVec.ofNat 8 (i / 256), BitVec.ofNat 8 i, BitVec.ofNat 8 (i / 256), f i]

/-- The checksum a WALK leaves (42_dump_engine.md section 4): 0x81 for data bytes 0 outside the reserved region, 0x01 for
data bytes 0xFF, and never dependent on the reserved region. -/
def Obligations.WalkChecksumOfUniformRoms : Prop :=
  (∀ (s : State) (rest : List Word) (d : Byte), Ready .walk rest s → d = 0x00#8 ∨ d = 0xFF#8 →
    (∀ i, 128 ≤ i → i < 4096 → (s.walkRecord i)[3] = d) →
      ∃ t out, runsTo 57345 s t ∧ t.csum = (if d = 0x00#8 then 0x81#8 else 0x01#8) ∧
        t.outTrace = s.outTrace ++ out ++ [.rsp .ok (if d = 0x00#8 then 0x81#32 else 0x01#32)]) ∧
    ∀ s s' : State, (∀ i, 128 ≤ i → i < 4096 → (s.walkRecord i)[3] = (s'.walkRecord i)[3]) →
      s.walkCsum 4096 = s'.walkCsum 4096

/-! ## Agreement of the two levels (43_sequencer_fsm.md section 5, derived there) -/

/-- The micro-step machine ends CLKP, SAMP, TRST and CAPT in exactly the state and traces of their loop programs. -/
def Obligations.SequencerAgreesWithBoundedRules : Prop :=
  ∀ (s : State) (rest : List Word),
    (∀ n : Arg, Ready (.clkp n) rest s → runsTo (2 * n.toNat + 1) s (atEnd (.clkp n) rest (ruleClkp n s))) ∧
      (Ready .samp rest s → runsTo 2 s (atEnd .samp rest (ruleSamp s))) ∧
      (Ready .trst rest s → runsTo (2 * s.cfg.resetPulses.toNat + 1) s (atEnd .trst rest (ruleTrst s))) ∧
      (Ready .capt rest s → runsTo 14 s (atEnd .capt rest (ruleCapt s)))

/-- The micro-step machine ends a SEEK in exactly the state and traces of its loop program when that ends within `fuel`
samples. When that does not, the machine stands after as many turns exactly where the loop program stands, about to sample,
with its line trace (`fuel` times a sample and a pulse) and its `CYC`, and at every step before it is busy, with a line trace
that is a prefix of it: so a SEEK that never matches produces the same infinite line trace at both levels. -/
def Obligations.SequencerAgreesWithSeekRule : Prop :=
  ∀ (s : State) (a : Arg) (rest : List Word) (fuel : Nat), Ready (.seek a) rest s →
    (∀ r, ruleSeek fuel a s = .ended r → ∃ c, c < fuel ∧ runsTo (3 * c + 2) s (atEnd (.seek a) rest r)) ∧
      ∀ r, ruleSeek fuel a s = .going r →
        runsTo (3 * fuel + 1) s { r with ops := rest, opr := 4#3, arg := a, st := .smp } ∧
          r.lineTrace = s.lineTrace ++ phaseEvents fuel ∧ r.cyc = BitVec.ofNat 32 fuel ∧
          ∀ n, 0 < n → n ≤ 3 * fuel + 1 → ∃ t, runsTo n s t ∧ t.st ≠ .idle ∧ t.lineTrace <+: r.lineTrace

/-- The micro-step machine ends a WALK in exactly the state and traces of its loop program. -/
def Obligations.SequencerAgreesWithWalkRule : Prop :=
  ∀ (s : State) (rest : List Word), Ready .walk rest s →
    ∃ r, ruleWalk s = some r ∧ runsTo 57345 s (atEnd .walk rest r)

/-! ## Frames -/

/-- What CLKP, TRST and SAMP leave unchanged in every state in which they answer a next state: all of the page, and every
register but the lines, `PCNT`, `OPR`, `ARG`, `ST` and, for SAMP, `S`; CLKP leaves the reset line, SAMP both lines. -/
def Obligations.SamplerOperationsFrame : Prop :=
  ∀ (i : Instr) (s t : State), exec i s = .next t → (∃ n, i = .clkp n) ∨ i = .trst ∨ i = .samp →
    (∀ j, Page.read t.page j = Page.read s.page j) ∧ t.page = s.page ∧
      t.hist = s.hist ∧ t.cyc = s.cyc ∧ t.ph = s.ph ∧ t.wAddr = s.wAddr ∧ t.record = s.record ∧ t.mm = s.mm ∧
      t.csum = s.csum ∧ t.pIdx = s.pIdx ∧ t.cfg = s.cfg ∧ t.ops = s.ops ∧ t.resetReq = s.resetReq ∧
      t.resetMark = s.resetMark ∧
      (i ≠ .samp → t.sample = s.sample ∧ t.answers = s.answers ∧ t.draws = s.draws) ∧
      (i ≠ .trst → t.rstN = s.rstN) ∧ (i = .samp → t.clk = s.clk ∧ t.pcnt = s.pcnt)

/-- What SEEK leaves unchanged: all of the page, and every register but `CLK`, `S`, `CYC`, `PCNT`, `OPR`, `ARG`, `ST` (that
`H` is not written is decision D20). -/
def Obligations.SeekFrame : Prop :=
  ∀ (a : Arg) (s t : State), exec (.seek a) s = .next t →
    (∀ j, Page.read t.page j = Page.read s.page j) ∧ t.page = s.page ∧
      t.rstN = s.rstN ∧ t.hist = s.hist ∧ t.ph = s.ph ∧ t.wAddr = s.wAddr ∧ t.record = s.record ∧ t.mm = s.mm ∧
      t.csum = s.csum ∧ t.pIdx = s.pIdx ∧ t.cfg = s.cfg ∧ t.ops = s.ops ∧ t.resetReq = s.resetReq ∧
      t.resetMark = s.resetMark

/-- What CAPT leaves unchanged: all of the page, and every register but `CLK`, `S`, `H`, `PH`, `REC`, `MM`, `PCNT`, `OPR`,
`ARG`, `ST`; of the history, every entry but that of the phase. -/
def Obligations.CaptFrame : Prop :=
  ∀ s t : State, exec .capt s = .next t →
    (∀ j, Page.read t.page j = Page.read s.page j) ∧ t.page = s.page ∧
      t.rstN = s.rstN ∧ t.cyc = s.cyc ∧ t.wAddr = s.wAddr ∧ t.csum = s.csum ∧ t.pIdx = s.pIdx ∧ t.cfg = s.cfg ∧
      t.ops = s.ops ∧ t.resetReq = s.resetReq ∧ t.resetMark = s.resetMark ∧
      (∀ p : Phase, p ≠ s.ph → t.histAt p = s.histAt p) ∧
      (s.st ≠ .asm → t.record = s.record ∧ t.mm = s.mm)

/-- What WALK leaves unchanged: every byte of the page outside the four that a store writes at `PIDX`, all of the page when
the transition is not a store, and every register that 42_dump_engine.md section 3 does not name; and the four bytes of a
store read back as the record. -/
def Obligations.WalkFrame : Prop :=
  ∀ s t : State, exec .walk s = .next t → Page.wf s.page = true →
    t.rstN = s.rstN ∧ t.cyc = s.cyc ∧ t.cfg = s.cfg ∧ t.ops = s.ops ∧ t.resetReq = s.resetReq ∧
      t.resetMark = s.resetMark ∧
      (∀ p : Phase, p ≠ s.ph → t.histAt p = s.histAt p) ∧
      (s.st ≠ .asm → t.record = s.record ∧ t.mm = s.mm) ∧
      (s.st ≠ .store → t.page = s.page ∧ (s.st ≠ .idle → t.csum = s.csum ∧ t.wAddr = s.wAddr ∧ t.pIdx = s.pIdx)) ∧
      (s.st = .store →
        (∀ j, j < s.pIdx.toNat ∨ s.pIdx.toNat + 4 ≤ j → Page.read t.page j = Page.read s.page j) ∧
          Page.read t.page s.pIdx.toNat = s.record[0] ∧ Page.read t.page (s.pIdx.toNat + 1) = s.record[1] ∧
          Page.read t.page (s.pIdx.toNat + 2) = s.record[2] ∧ Page.read t.page (s.pIdx.toNat + 3) = s.record[3] ∧
          t.sample = s.sample ∧ t.hist = s.hist ∧ t.clk = s.clk ∧ t.pcnt = s.pcnt)

/-- No step changes the board, no step takes an event out of the traces, and pins are read exactly as often as `Smp` is
recorded (00_scope.md R6, 90_conflicts.md C9). -/
def Obligations.TracesOnlyGrow : Prop :=
  ∀ s t : State, step s = .next t →
    t.cfg = s.cfg ∧ s.trace <+: t.trace ∧ s.outTrace <+: t.outTrace ∧ s.lineTrace <+: t.lineTrace ∧
      t.draws + s.lineTrace.count .smp = s.draws + t.lineTrace.count .smp

/-! ## Invariants -/

/-- The reset state has the values of 10_state.md section 10 (decision D24), for every register the spec gives one. -/
def Obligations.ResetHasTheSpecsValues : Prop :=
  State.reset.clk = true ∧ State.reset.rstN = true ∧ State.reset.st = .idle ∧ State.reset.opr = 0#3 ∧
    State.reset.arg = 0#12 ∧ State.reset.pcnt = 0#12 ∧ State.reset.ph = 0#2 ∧ State.reset.wAddr = 0#13 ∧
    State.reset.cyc = 0#32 ∧ State.reset.pIdx = 0#7 ∧ State.reset.csum = 0x81#8 ∧ State.reset.mm = false ∧
    State.reset.lineTrace = [] ∧ State.reset.outTrace = []

/-- The reset state satisfies the invariant. -/
def Obligations.ResetSatisfiesTheInvariant : Prop := Inv State.reset

/-- Every step keeps the invariant of the machine: the page canonical, the lines as the trace says, every state of `ST` with
the levels, counts and latches it may have (10_state.md section 11, derived there). -/
def Obligations.StepKeepsTheInvariant : Prop := ∀ s t : State, Inv s → step s = .next t → Inv t

/-- In a state of the invariant the machine never stops: no fault, no refusal, so `SEEK` without a match is a run and not a
stuck state (43_sequencer_fsm.md section 1, 41_cycle_search.md section 3). -/
def Obligations.InvariantStatesNeverStop : Prop := ∀ s : State, Inv s → ∃ t, step s = .next t

/-- Between operations the line trace holds as many `Fall` as `Rise` and as many `RstLow` as `RstHigh`, and the registers
read as 10_state.md section 11 says (derived there). -/
def Obligations.IdleTracesAreBalanced : Prop :=
  ∀ s : State, Inv s → s.st = .idle →
    s.clk = true ∧ s.rstN = true ∧ s.pcnt = 0#12 ∧ s.opr = 0#3 ∧ s.pIdx = 0#7 ∧
      s.lineTrace.count .fall = s.lineTrace.count .rise ∧ s.lineTrace.count .rstLow = s.lineTrace.count .rstHigh

/-- Block reset from any state: the registers the spec gives a value have it, the traces keep what they held and record a
`Rise` or a `RstHigh` for each line found low (in either order, log 10), no response is given, the target is not touched
(60_exceptions.md section 4; how it is requested is the model's choice, log 9), and the observer marks where the line trace
then ends (log 13). -/
def Obligations.BlockResetFromAnyState : Prop :=
  ∀ s : State, s.resetReq = true →
    ∃ t events, step s = .next t ∧
      t.clk = true ∧ t.rstN = true ∧ t.st = .idle ∧ t.opr = 0#3 ∧ t.arg = 0#12 ∧ t.pcnt = 0#12 ∧ t.ph = 0#2 ∧
      t.wAddr = 0#13 ∧ t.cyc = 0#32 ∧ t.pIdx = 0#7 ∧ t.csum = 0x81#8 ∧ t.mm = false ∧ t.resetReq = false ∧
      t.answers = s.answers ∧ t.draws = s.draws ∧ t.outTrace = s.outTrace ∧
      t.lineTrace = s.lineTrace ++ events ∧ t.resetMark = t.lineTrace.length ∧
      events.Perm ((if s.clk then [] else [LineEvent.rise]) ++ (if s.rstN then [] else [LineEvent.rstHigh]))

/-- The registers whose reset values the spec leaves unspecified never reach a trace (10_state.md section 11, derived
there): two idle states that differ in `S`, `H`, `REC` and `PAGE` alone have the same traces after every number of steps. So
the values the model names (log 1, log 2) are never observed. -/
def Obligations.UnspecifiedRegistersNeverShow : Prop :=
  ∀ s s' : State, Inv s → Inv s' → s.st = .idle → agreeButUnspecified s s' →
    ∀ n t, runsTo n s t → ∃ t', runsTo n s' t' ∧ t'.log = t.log

/-! ## The functions (40_bus_sampler.md, 41_cycle_search.md, 30_encoding.md) -/

/-- Every permutation of the low byte is a bijection on bytes that moves bits as the gather rule says (decision D9), fixes
0x00 and 0xFF and keeps the number of set bits (40_bus_sampler.md section 3). -/
def Obligations.PermIsABijectionOnBytes : Prop :=
  ∀ p : BitPerm,
    (∀ (x : Byte) (i : Fin 8), (perm8 p x)[i] = x[p.entries[i]]) ∧
      (∀ x y : Byte, perm8 p x = perm8 p y → x = y) ∧ (∀ y : Byte, ∃ x, perm8 p x = y) ∧
      perm8 p 0x00#8 = 0x00#8 ∧ perm8 p 0xFF#8 = 0xFF#8 ∧
      ∀ x : Byte,
        (Finset.univ.filter fun i : Fin 8 => (perm8 p x)[i] = true).card =
          (Finset.univ.filter fun i : Fin 8 => x[i] = true).card

/-- R100: a sample matches exactly when STROBE is 1, NUM is 0 and its address is the target address; the address is the low
four bits of `hc` above `al`, and the control bits take no part. -/
def Obligations.MatchNeedsAllThreeConditions : Prop :=
  ∀ (s : Sample) (t : Arg),
    (qual s t = true ↔ s.stb = true ∧ s.num = false ∧ addr12 s = t) ∧
      (addr12 s).toNat = s.hc.toNat % 16 * 256 + s.al.toNat ∧
      ∀ hc : Byte, hc.toNat % 16 = s.hc.toNat % 16 → qual { s with hc := hc } t = qual s t

/-- The values of responses, field by field, and the codes of the three statuses (30_encoding.md section 5, decision D3). -/
def Obligations.ResponseValuesArePacked : Prop :=
  (Status.ok.code = 0x0#4 ∧ Status.okMismatch.code = 0x1#4 ∧ Status.errIllegalOp.code = 0xF#4) ∧
  (∀ s : Sample,
    (packSample s).extractLsb' 0 8 = s.al ∧ (packSample s).extractLsb' 8 8 = s.hc ∧
      (packSample s).getLsbD 16 = s.num ∧ (packSample s).getLsbD 17 = s.stb ∧
      (packSample s).extractLsb' 18 14 = 0#14) ∧
    (∀ r : Vector Byte 4,
      (packRecord r).extractLsb' 0 8 = r[0] ∧ (packRecord r).extractLsb' 8 8 = r[1] ∧
        (packRecord r).extractLsb' 16 8 = r[2] ∧ (packRecord r).extractLsb' 24 8 = r[3]) ∧
    (∀ c : Byte, (packCsum c).toNat = c.toNat) ∧ ∀ w : Word, (packWord w).toNat = w.toNat

/-- With `A_PH = D_PH`, a legal board, no record mismatches: CAPT answers `OK`, and a WALK gives no `Diag` for any of its
records (93_implementation_defined.md U10). -/
def Obligations.SamePhasesNeverMismatch : Prop :=
  ∀ (s : State) (rest : List Word), s.cfg.aPh = s.cfg.dPh →
    (Ready .capt rest s →
      ∃ t v, runsTo 14 s t ∧ t.mm = false ∧ t.record[0] = t.record[2] ∧ t.record[1] = t.record[3] ∧
        t.outTrace = s.outTrace ++ [.rsp .ok v]) ∧
      (Ready .walk rest s →
        (∀ i, (s.walkRecord i)[0] = (s.walkRecord i)[2] ∧ (s.walkRecord i)[1] = (s.walkRecord i)[3]) ∧
          ∃ t out, runsTo 57345 s t ∧ t.st = .idle ∧ t.mm = false ∧ t.record[0] = t.record[2] ∧
            t.record[1] = t.record[3] ∧ t.outTrace = s.outTrace ++ out ∧ noDiag out)
end

