-- ==== Sys2Proof/Laws/Page.lean ====
section
/-! SUPPORT. The laws of the page buffer: read after write, what a write leaves alone, and that every page operation keeps
the canonical form (20_memory.md R44, log 2). -/

namespace Sys2Proof.Machine

theorem Page.wf_nil : Page.wf [] = true := by decide

theorem Page.wf_iff (p : Page) :
    Page.wf p = true ↔ p.Pairwise (fun a b => a.1 < b.1) ∧ ∀ c ∈ p, c.1 < 64 ∧ c.2 ≠ Page.unlisted := by
  simp only [Page.wf, Bool.and_eq_true, decide_eq_true_eq, List.all_eq_true, bne_iff_ne]

theorem Page.wf_cons (c : Host.Cell) (p : Page) :
    Page.wf (c :: p) = true ↔
      (∀ b ∈ p, c.1 < b.1) ∧ c.1 < 64 ∧ c.2 ≠ Page.unlisted ∧ Page.wf p = true := by
  simp only [Page.wf_iff, List.pairwise_cons, List.mem_cons, forall_eq_or_imp]
  tauto

/-- An index below every entry's is not listed. -/
theorem Page.read_of_lt {p : Page} {i : Nat} (h : ∀ b ∈ p, i < b.1) : Page.read p i = Page.unlisted := by
  induction p with
  | nil => rfl
  | cons c p ih =>
    have hc : c.1 ≠ i := by have := h c (by simp); omega
    simp only [Page.read, hc, if_false]
    exact ih fun b hb => h b (by simp [hb])

theorem Page.read_insert (p : Page) (i j : Nat) (v : Byte) :
    Page.read (Page.insert p i v) j = if i = j then v else Page.read p j := by
  induction p with
  | nil => simp [Page.insert, Page.read]
  | cons c p ih =>
    by_cases h : i < c.1
    · simp [Page.insert, Page.read, h]
    · by_cases hc : c.1 = i
      · by_cases hij : i = j <;> simp [Page.insert, Page.read, hc, hij]
      · simp only [Page.insert, h, hc, if_false, Page.read, ih]
        by_cases hj : c.1 = j
        · have : i ≠ j := by omega
          simp [hj, this]
        · simp [hj]

theorem Page.read_erase {p : Page} (hp : Page.wf p = true) (i j : Nat) :
    Page.read (Page.erase p i) j = if i = j then Page.unlisted else Page.read p j := by
  induction p with
  | nil => simp [Page.erase, Page.read]
  | cons c p ih =>
    obtain ⟨hlt, _, _, hwf⟩ := (Page.wf_cons c p).1 hp
    by_cases hc : c.1 = i
    · by_cases hij : i = j
      · subst hc
        simpa [Page.erase, hij] using Page.read_of_lt (i := j) (fun b hb => hij ▸ hlt b hb)
      · simp [Page.erase, Page.read, hc, hij]
    · simp only [Page.erase, hc, if_false, Page.read, ih hwf]
      by_cases hj : c.1 = j
      · have : i ≠ j := by omega
        simp [hj, this]
      · simp [hj]

/-- Read after write: the byte written at its own index, what was there everywhere else. -/
theorem Page.read_write {p : Page} (hp : Page.wf p = true) (i j : Nat) (v : Byte) :
    Page.read (Page.write p i v) j = if i = j then v else Page.read p j := by
  unfold Page.write
  split
  · next hv => simp [Page.read_erase hp, hv]
  · exact Page.read_insert p i j v

theorem Page.mem_insert {p : Page} {i : Nat} {v : Byte} {c : Host.Cell} (h : c ∈ Page.insert p i v) :
    c = (i, v) ∨ c ∈ p := by
  induction p with
  | nil => simpa [Page.insert] using h
  | cons d p ih =>
    simp only [Page.insert] at h
    split at h
    · simpa using h
    · split at h
      · rcases List.mem_cons.1 h with h | h <;> simp [h]
      · rcases List.mem_cons.1 h with h | h
        · simp [h]
        · rcases ih h with h | h <;> simp [h]

theorem Page.insert_wf {p : Page} {i : Nat} {v : Byte} (hp : Page.wf p = true) (hi : i < 64)
    (hv : v ≠ Page.unlisted) : Page.wf (Page.insert p i v) = true := by
  induction p with
  | nil => simp [Page.insert, Page.wf_cons, Page.wf_nil, hi, hv]
  | cons c p ih =>
    obtain ⟨hlt, hc64, hc0, hwf⟩ := (Page.wf_cons c p).1 hp
    by_cases h : i < c.1
    · have hall : ∀ b ∈ c :: p, i < b.1 := by
        intro b hb
        rcases List.mem_cons.1 hb with hb | hb
        · exact hb ▸ h
        · exact h.trans (hlt b hb)
      simp only [Page.insert, h, if_true]
      exact (Page.wf_cons _ _).2 ⟨hall, hi, hv, hp⟩
    · by_cases hc : c.1 = i
      · simp only [Page.insert, hc, if_true, lt_irrefl, if_false]
        exact (Page.wf_cons _ _).2 ⟨fun b hb => hc ▸ hlt b hb, hi, hv, hwf⟩
      · simp only [Page.insert, h, hc, if_false]
        refine (Page.wf_cons _ _).2 ⟨fun b hb => ?_, hc64, hc0, ih hwf⟩
        rcases Page.mem_insert hb with hb | hb
        · rw [hb]; show c.1 < i; omega
        · exact hlt b hb

theorem Page.mem_erase {p : Page} {i : Nat} {c : Host.Cell} (h : c ∈ Page.erase p i) : c ∈ p := by
  induction p with
  | nil => simp [Page.erase] at h
  | cons d p ih =>
    simp only [Page.erase] at h
    split at h
    · simp [h]
    · rcases List.mem_cons.1 h with h | h
      · simp [h]
      · simp [ih h]

theorem Page.erase_wf {p : Page} {i : Nat} (hp : Page.wf p = true) : Page.wf (Page.erase p i) = true := by
  induction p with
  | nil => exact hp
  | cons c p ih =>
    obtain ⟨hlt, hc64, hc0, hwf⟩ := (Page.wf_cons c p).1 hp
    simp only [Page.erase]
    split
    · exact hwf
    · exact (Page.wf_cons _ _).2 ⟨fun b hb => hlt b (Page.mem_erase hb), hc64, hc0, ih hwf⟩

/-- A write keeps the canonical form. -/
theorem Page.write_wf {p : Page} {i : Nat} {v : Byte} (hp : Page.wf p = true) (hi : i < 64) :
    Page.wf (Page.write p i v) = true := by
  unfold Page.write
  split
  · exact Page.erase_wf hp
  · next hv => exact Page.insert_wf hp hi hv

@[simp] theorem Page.bytes_length (p : Page) : (Page.bytes p).length = 64 := by
  simp [Page.bytes, Config.pageSize]

theorem Page.bytes_getElem? (p : Page) {i : Nat} (hi : i < 64) : (Page.bytes p)[i]? = some (Page.read p i) := by
  simp [Page.bytes, Config.pageSize, hi]

/-- Pages in canonical form that read alike are equal. -/
theorem Page.ext_read {p q : Page} (hp : Page.wf p = true) (hq : Page.wf q = true)
    (h : ∀ i, Page.read p i = Page.read q i) : p = q := by
  induction p generalizing q with
  | nil =>
    cases q with
    | nil => rfl
    | cons d q =>
      have hd := ((Page.wf_cons d q).1 hq).2.2.1
      have := h d.1
      simp [Page.read] at this
      exact absurd this.symm hd
  | cons c p ih =>
    obtain ⟨hlt, _, hc0, hwf⟩ := (Page.wf_cons c p).1 hp
    cases q with
    | nil =>
      have := h c.1
      simp [Page.read] at this
      exact absurd this hc0
    | cons d q =>
      obtain ⟨hltq, _, hd0, hwfq⟩ := (Page.wf_cons d q).1 hq
      have hcd : c.1 = d.1 := by
        rcases lt_trichotomy c.1 d.1 with hlt' | heq | hgt
        · have hr := h c.1
          have : Page.read (d :: q) c.1 = Page.unlisted := Page.read_of_lt (by
            intro b hb
            rcases List.mem_cons.1 hb with hb | hb
            · exact hb ▸ hlt'
            · exact hlt'.trans (hltq b hb))
          simp [Page.read] at hr this
          rw [this] at hr
          exact absurd hr hc0
        · exact heq
        · have hr := h d.1
          have : Page.read (c :: p) d.1 = Page.unlisted := Page.read_of_lt (by
            intro b hb
            rcases List.mem_cons.1 hb with hb | hb
            · exact hb ▸ hgt
            · exact hgt.trans (hlt b hb))
          simp [Page.read] at hr this
          rw [this] at hr
          exact absurd hr.symm hd0
      have hv : c.2 = d.2 := by simpa [Page.read, hcd] using h c.1
      have hpq : p = q := ih hwf hwfq fun i => by
        by_cases hi : c.1 = i
        · rw [Page.read_of_lt (i := i) fun b hb => hi ▸ hlt b hb,
            Page.read_of_lt (i := i) fun b hb => by rw [← hi, hcd]; exact hltq b hb]
        · simpa [Page.read, hi, ← hcd] using h i
      rw [hpq, Prod.ext hcd hv]

end Sys2Proof.Machine
end

