-- ==== Sys2Proof/Laws/State.lean ====
section
/-! SUPPORT. One lemma per field of State for each shared update, true by rfl: what an update writes, and that it leaves
every other field alone. -/

namespace Sys2Proof.Machine

@[simp] theorem wait_eq (d : ℕ+) (s : State) : wait d s = s := rfl

/-! `emit` -/

@[simp] theorem emit_clk (e : Event) (s : State) : (emit e s).clk = s.clk := rfl
@[simp] theorem emit_rstN (e : Event) (s : State) : (emit e s).rstN = s.rstN := rfl
@[simp] theorem emit_sample (e : Event) (s : State) : (emit e s).sample = s.sample := rfl
@[simp] theorem emit_hist (e : Event) (s : State) : (emit e s).hist = s.hist := rfl
@[simp] theorem emit_cyc (e : Event) (s : State) : (emit e s).cyc = s.cyc := rfl
@[simp] theorem emit_pcnt (e : Event) (s : State) : (emit e s).pcnt = s.pcnt := rfl
@[simp] theorem emit_ph (e : Event) (s : State) : (emit e s).ph = s.ph := rfl
@[simp] theorem emit_wAddr (e : Event) (s : State) : (emit e s).wAddr = s.wAddr := rfl
@[simp] theorem emit_record (e : Event) (s : State) : (emit e s).record = s.record := rfl
@[simp] theorem emit_mm (e : Event) (s : State) : (emit e s).mm = s.mm := rfl
@[simp] theorem emit_csum (e : Event) (s : State) : (emit e s).csum = s.csum := rfl
@[simp] theorem emit_pIdx (e : Event) (s : State) : (emit e s).pIdx = s.pIdx := rfl
@[simp] theorem emit_page (e : Event) (s : State) : (emit e s).page = s.page := rfl
@[simp] theorem emit_opr (e : Event) (s : State) : (emit e s).opr = s.opr := rfl
@[simp] theorem emit_arg (e : Event) (s : State) : (emit e s).arg = s.arg := rfl
@[simp] theorem emit_st (e : Event) (s : State) : (emit e s).st = s.st := rfl
@[simp] theorem emit_log (e : Event) (s : State) : (emit e s).log = e :: s.log := rfl
@[simp] theorem emit_cfg (e : Event) (s : State) : (emit e s).cfg = s.cfg := rfl
@[simp] theorem emit_ops (e : Event) (s : State) : (emit e s).ops = s.ops := rfl
@[simp] theorem emit_answers (e : Event) (s : State) : (emit e s).answers = s.answers := rfl
@[simp] theorem emit_draws (e : Event) (s : State) : (emit e s).draws = s.draws := rfl
@[simp] theorem emit_resetMark (e : Event) (s : State) : (emit e s).resetMark = s.resetMark := rfl
@[simp] theorem emit_resetReq (e : Event) (s : State) : (emit e s).resetReq = s.resetReq := rfl

/-! `driveClk` -/

@[simp] theorem driveClk_clk (b : Bool) (s : State) : (driveClk b s).clk = b := rfl
@[simp] theorem driveClk_rstN (b : Bool) (s : State) : (driveClk b s).rstN = s.rstN := rfl
@[simp] theorem driveClk_sample (b : Bool) (s : State) : (driveClk b s).sample = s.sample := rfl
@[simp] theorem driveClk_hist (b : Bool) (s : State) : (driveClk b s).hist = s.hist := rfl
@[simp] theorem driveClk_cyc (b : Bool) (s : State) : (driveClk b s).cyc = s.cyc := rfl
@[simp] theorem driveClk_pcnt (b : Bool) (s : State) : (driveClk b s).pcnt = s.pcnt := rfl
@[simp] theorem driveClk_ph (b : Bool) (s : State) : (driveClk b s).ph = s.ph := rfl
@[simp] theorem driveClk_wAddr (b : Bool) (s : State) : (driveClk b s).wAddr = s.wAddr := rfl
@[simp] theorem driveClk_record (b : Bool) (s : State) : (driveClk b s).record = s.record := rfl
@[simp] theorem driveClk_mm (b : Bool) (s : State) : (driveClk b s).mm = s.mm := rfl
@[simp] theorem driveClk_csum (b : Bool) (s : State) : (driveClk b s).csum = s.csum := rfl
@[simp] theorem driveClk_pIdx (b : Bool) (s : State) : (driveClk b s).pIdx = s.pIdx := rfl
@[simp] theorem driveClk_page (b : Bool) (s : State) : (driveClk b s).page = s.page := rfl
@[simp] theorem driveClk_opr (b : Bool) (s : State) : (driveClk b s).opr = s.opr := rfl
@[simp] theorem driveClk_arg (b : Bool) (s : State) : (driveClk b s).arg = s.arg := rfl
@[simp] theorem driveClk_st (b : Bool) (s : State) : (driveClk b s).st = s.st := rfl
@[simp] theorem driveClk_log (b : Bool) (s : State) :
    (driveClk b s).log = .line (if b then .rise else .fall) :: s.log := rfl
@[simp] theorem driveClk_cfg (b : Bool) (s : State) : (driveClk b s).cfg = s.cfg := rfl
@[simp] theorem driveClk_ops (b : Bool) (s : State) : (driveClk b s).ops = s.ops := rfl
@[simp] theorem driveClk_answers (b : Bool) (s : State) : (driveClk b s).answers = s.answers := rfl
@[simp] theorem driveClk_draws (b : Bool) (s : State) : (driveClk b s).draws = s.draws := rfl
@[simp] theorem driveClk_resetMark (b : Bool) (s : State) : (driveClk b s).resetMark = s.resetMark := rfl
@[simp] theorem driveClk_resetReq (b : Bool) (s : State) : (driveClk b s).resetReq = s.resetReq := rfl

/-! `driveRst` -/

@[simp] theorem driveRst_clk (b : Bool) (s : State) : (driveRst b s).clk = s.clk := rfl
@[simp] theorem driveRst_rstN (b : Bool) (s : State) : (driveRst b s).rstN = b := rfl
@[simp] theorem driveRst_sample (b : Bool) (s : State) : (driveRst b s).sample = s.sample := rfl
@[simp] theorem driveRst_hist (b : Bool) (s : State) : (driveRst b s).hist = s.hist := rfl
@[simp] theorem driveRst_cyc (b : Bool) (s : State) : (driveRst b s).cyc = s.cyc := rfl
@[simp] theorem driveRst_pcnt (b : Bool) (s : State) : (driveRst b s).pcnt = s.pcnt := rfl
@[simp] theorem driveRst_ph (b : Bool) (s : State) : (driveRst b s).ph = s.ph := rfl
@[simp] theorem driveRst_wAddr (b : Bool) (s : State) : (driveRst b s).wAddr = s.wAddr := rfl
@[simp] theorem driveRst_record (b : Bool) (s : State) : (driveRst b s).record = s.record := rfl
@[simp] theorem driveRst_mm (b : Bool) (s : State) : (driveRst b s).mm = s.mm := rfl
@[simp] theorem driveRst_csum (b : Bool) (s : State) : (driveRst b s).csum = s.csum := rfl
@[simp] theorem driveRst_pIdx (b : Bool) (s : State) : (driveRst b s).pIdx = s.pIdx := rfl
@[simp] theorem driveRst_page (b : Bool) (s : State) : (driveRst b s).page = s.page := rfl
@[simp] theorem driveRst_opr (b : Bool) (s : State) : (driveRst b s).opr = s.opr := rfl
@[simp] theorem driveRst_arg (b : Bool) (s : State) : (driveRst b s).arg = s.arg := rfl
@[simp] theorem driveRst_st (b : Bool) (s : State) : (driveRst b s).st = s.st := rfl
@[simp] theorem driveRst_log (b : Bool) (s : State) :
    (driveRst b s).log = .line (if b then .rstHigh else .rstLow) :: s.log := rfl
@[simp] theorem driveRst_cfg (b : Bool) (s : State) : (driveRst b s).cfg = s.cfg := rfl
@[simp] theorem driveRst_ops (b : Bool) (s : State) : (driveRst b s).ops = s.ops := rfl
@[simp] theorem driveRst_answers (b : Bool) (s : State) : (driveRst b s).answers = s.answers := rfl
@[simp] theorem driveRst_draws (b : Bool) (s : State) : (driveRst b s).draws = s.draws := rfl
@[simp] theorem driveRst_resetMark (b : Bool) (s : State) : (driveRst b s).resetMark = s.resetMark := rfl
@[simp] theorem driveRst_resetReq (b : Bool) (s : State) : (driveRst b s).resetReq = s.resetReq := rfl

/-! `respond` -/

@[simp] theorem respond_clk (st : Status) (v : BitVec 32) (s : State) : (respond st v s).clk = s.clk := rfl
@[simp] theorem respond_rstN (st : Status) (v : BitVec 32) (s : State) : (respond st v s).rstN = s.rstN := rfl
@[simp] theorem respond_sample (st : Status) (v : BitVec 32) (s : State) : (respond st v s).sample = s.sample := rfl
@[simp] theorem respond_hist (st : Status) (v : BitVec 32) (s : State) : (respond st v s).hist = s.hist := rfl
@[simp] theorem respond_cyc (st : Status) (v : BitVec 32) (s : State) : (respond st v s).cyc = s.cyc := rfl
@[simp] theorem respond_pcnt (st : Status) (v : BitVec 32) (s : State) : (respond st v s).pcnt = s.pcnt := rfl
@[simp] theorem respond_ph (st : Status) (v : BitVec 32) (s : State) : (respond st v s).ph = s.ph := rfl
@[simp] theorem respond_wAddr (st : Status) (v : BitVec 32) (s : State) : (respond st v s).wAddr = s.wAddr := rfl
@[simp] theorem respond_record (st : Status) (v : BitVec 32) (s : State) : (respond st v s).record = s.record := rfl
@[simp] theorem respond_mm (st : Status) (v : BitVec 32) (s : State) : (respond st v s).mm = s.mm := rfl
@[simp] theorem respond_csum (st : Status) (v : BitVec 32) (s : State) : (respond st v s).csum = s.csum := rfl
@[simp] theorem respond_pIdx (st : Status) (v : BitVec 32) (s : State) : (respond st v s).pIdx = s.pIdx := rfl
@[simp] theorem respond_page (st : Status) (v : BitVec 32) (s : State) : (respond st v s).page = s.page := rfl
@[simp] theorem respond_opr (st : Status) (v : BitVec 32) (s : State) : (respond st v s).opr = s.opr := rfl
@[simp] theorem respond_arg (st : Status) (v : BitVec 32) (s : State) : (respond st v s).arg = s.arg := rfl
@[simp] theorem respond_st (st : Status) (v : BitVec 32) (s : State) : (respond st v s).st = s.st := rfl
@[simp] theorem respond_log (st : Status) (v : BitVec 32) (s : State) :
    (respond st v s).log = .out (.rsp st v) :: s.log := rfl
@[simp] theorem respond_cfg (st : Status) (v : BitVec 32) (s : State) : (respond st v s).cfg = s.cfg := rfl
@[simp] theorem respond_ops (st : Status) (v : BitVec 32) (s : State) : (respond st v s).ops = s.ops := rfl
@[simp] theorem respond_answers (st : Status) (v : BitVec 32) (s : State) :
    (respond st v s).answers = s.answers := rfl
@[simp] theorem respond_draws (st : Status) (v : BitVec 32) (s : State) : (respond st v s).draws = s.draws := rfl
@[simp] theorem respond_resetMark (st : Status) (v : BitVec 32) (s : State) :
    (respond st v s).resetMark = s.resetMark := rfl
@[simp] theorem respond_resetReq (st : Status) (v : BitVec 32) (s : State) :
    (respond st v s).resetReq = s.resetReq := rfl

/-! `takeSample` -/

@[simp] theorem takeSample_clk (s : State) : (takeSample s).clk = s.clk := rfl
@[simp] theorem takeSample_rstN (s : State) : (takeSample s).rstN = s.rstN := rfl
@[simp] theorem takeSample_sample (s : State) : (takeSample s).sample = remap s.cfg.perm (s.pinsAt 0) := rfl
@[simp] theorem takeSample_hist (s : State) : (takeSample s).hist = s.hist := rfl
@[simp] theorem takeSample_cyc (s : State) : (takeSample s).cyc = s.cyc := rfl
@[simp] theorem takeSample_pcnt (s : State) : (takeSample s).pcnt = s.pcnt := rfl
@[simp] theorem takeSample_ph (s : State) : (takeSample s).ph = s.ph := rfl
@[simp] theorem takeSample_wAddr (s : State) : (takeSample s).wAddr = s.wAddr := rfl
@[simp] theorem takeSample_record (s : State) : (takeSample s).record = s.record := rfl
@[simp] theorem takeSample_mm (s : State) : (takeSample s).mm = s.mm := rfl
@[simp] theorem takeSample_csum (s : State) : (takeSample s).csum = s.csum := rfl
@[simp] theorem takeSample_pIdx (s : State) : (takeSample s).pIdx = s.pIdx := rfl
@[simp] theorem takeSample_page (s : State) : (takeSample s).page = s.page := rfl
@[simp] theorem takeSample_opr (s : State) : (takeSample s).opr = s.opr := rfl
@[simp] theorem takeSample_arg (s : State) : (takeSample s).arg = s.arg := rfl
@[simp] theorem takeSample_st (s : State) : (takeSample s).st = s.st := rfl
@[simp] theorem takeSample_log (s : State) : (takeSample s).log = .line .smp :: s.log := rfl
@[simp] theorem takeSample_cfg (s : State) : (takeSample s).cfg = s.cfg := rfl
@[simp] theorem takeSample_ops (s : State) : (takeSample s).ops = s.ops := rfl
@[simp] theorem takeSample_answers (s : State) : (takeSample s).answers = s.answers.tail := rfl
@[simp] theorem takeSample_draws (s : State) : (takeSample s).draws = s.draws + 1 := rfl
@[simp] theorem takeSample_resetMark (s : State) : (takeSample s).resetMark = s.resetMark := rfl
@[simp] theorem takeSample_resetReq (s : State) : (takeSample s).resetReq = s.resetReq := rfl

/-! `writeHist` -/

@[simp] theorem writeHist_clk (p : Phase) (s : State) : (writeHist p s).clk = s.clk := rfl
@[simp] theorem writeHist_rstN (p : Phase) (s : State) : (writeHist p s).rstN = s.rstN := rfl
@[simp] theorem writeHist_sample (p : Phase) (s : State) : (writeHist p s).sample = s.sample := rfl
@[simp] theorem writeHist_hist (p : Phase) (s : State) :
    (writeHist p s).hist = s.hist.set p.toNat s.sample p.isLt := rfl
@[simp] theorem writeHist_cyc (p : Phase) (s : State) : (writeHist p s).cyc = s.cyc := rfl
@[simp] theorem writeHist_pcnt (p : Phase) (s : State) : (writeHist p s).pcnt = s.pcnt := rfl
@[simp] theorem writeHist_ph (p : Phase) (s : State) : (writeHist p s).ph = s.ph := rfl
@[simp] theorem writeHist_wAddr (p : Phase) (s : State) : (writeHist p s).wAddr = s.wAddr := rfl
@[simp] theorem writeHist_record (p : Phase) (s : State) : (writeHist p s).record = s.record := rfl
@[simp] theorem writeHist_mm (p : Phase) (s : State) : (writeHist p s).mm = s.mm := rfl
@[simp] theorem writeHist_csum (p : Phase) (s : State) : (writeHist p s).csum = s.csum := rfl
@[simp] theorem writeHist_pIdx (p : Phase) (s : State) : (writeHist p s).pIdx = s.pIdx := rfl
@[simp] theorem writeHist_page (p : Phase) (s : State) : (writeHist p s).page = s.page := rfl
@[simp] theorem writeHist_opr (p : Phase) (s : State) : (writeHist p s).opr = s.opr := rfl
@[simp] theorem writeHist_arg (p : Phase) (s : State) : (writeHist p s).arg = s.arg := rfl
@[simp] theorem writeHist_st (p : Phase) (s : State) : (writeHist p s).st = s.st := rfl
@[simp] theorem writeHist_log (p : Phase) (s : State) : (writeHist p s).log = s.log := rfl
@[simp] theorem writeHist_cfg (p : Phase) (s : State) : (writeHist p s).cfg = s.cfg := rfl
@[simp] theorem writeHist_ops (p : Phase) (s : State) : (writeHist p s).ops = s.ops := rfl
@[simp] theorem writeHist_answers (p : Phase) (s : State) : (writeHist p s).answers = s.answers := rfl
@[simp] theorem writeHist_draws (p : Phase) (s : State) : (writeHist p s).draws = s.draws := rfl
@[simp] theorem writeHist_resetMark (p : Phase) (s : State) : (writeHist p s).resetMark = s.resetMark := rfl
@[simp] theorem writeHist_resetReq (p : Phase) (s : State) : (writeHist p s).resetReq = s.resetReq := rfl

/-! `finish` -/

@[simp] theorem finish_clk (st : Status) (v : BitVec 32) (s : State) : (finish st v s).clk = s.clk := rfl
@[simp] theorem finish_rstN (st : Status) (v : BitVec 32) (s : State) : (finish st v s).rstN = s.rstN := rfl
@[simp] theorem finish_sample (st : Status) (v : BitVec 32) (s : State) : (finish st v s).sample = s.sample := rfl
@[simp] theorem finish_hist (st : Status) (v : BitVec 32) (s : State) : (finish st v s).hist = s.hist := rfl
@[simp] theorem finish_cyc (st : Status) (v : BitVec 32) (s : State) : (finish st v s).cyc = s.cyc := rfl
@[simp] theorem finish_pcnt (st : Status) (v : BitVec 32) (s : State) : (finish st v s).pcnt = s.pcnt := rfl
@[simp] theorem finish_ph (st : Status) (v : BitVec 32) (s : State) : (finish st v s).ph = s.ph := rfl
@[simp] theorem finish_wAddr (st : Status) (v : BitVec 32) (s : State) : (finish st v s).wAddr = s.wAddr := rfl
@[simp] theorem finish_record (st : Status) (v : BitVec 32) (s : State) : (finish st v s).record = s.record := rfl
@[simp] theorem finish_mm (st : Status) (v : BitVec 32) (s : State) : (finish st v s).mm = s.mm := rfl
@[simp] theorem finish_csum (st : Status) (v : BitVec 32) (s : State) : (finish st v s).csum = s.csum := rfl
@[simp] theorem finish_pIdx (st : Status) (v : BitVec 32) (s : State) : (finish st v s).pIdx = s.pIdx := rfl
@[simp] theorem finish_page (st : Status) (v : BitVec 32) (s : State) : (finish st v s).page = s.page := rfl
@[simp] theorem finish_opr (st : Status) (v : BitVec 32) (s : State) : (finish st v s).opr = 0#3 := rfl
@[simp] theorem finish_arg (st : Status) (v : BitVec 32) (s : State) : (finish st v s).arg = s.arg := rfl
@[simp] theorem finish_st (st : Status) (v : BitVec 32) (s : State) : (finish st v s).st = .idle := rfl
@[simp] theorem finish_log (st : Status) (v : BitVec 32) (s : State) :
    (finish st v s).log = .out (.rsp st v) :: s.log := rfl
@[simp] theorem finish_cfg (st : Status) (v : BitVec 32) (s : State) : (finish st v s).cfg = s.cfg := rfl
@[simp] theorem finish_ops (st : Status) (v : BitVec 32) (s : State) : (finish st v s).ops = s.ops := rfl
@[simp] theorem finish_answers (st : Status) (v : BitVec 32) (s : State) : (finish st v s).answers = s.answers := rfl
@[simp] theorem finish_draws (st : Status) (v : BitVec 32) (s : State) : (finish st v s).draws = s.draws := rfl
@[simp] theorem finish_resetMark (st : Status) (v : BitVec 32) (s : State) :
    (finish st v s).resetMark = s.resetMark := rfl
@[simp] theorem finish_resetReq (st : Status) (v : BitVec 32) (s : State) :
    (finish st v s).resetReq = s.resetReq := rfl

/-! `beginPulse` -/

@[simp] theorem beginPulse_clk (s : State) : (beginPulse s).clk = false := rfl
@[simp] theorem beginPulse_rstN (s : State) : (beginPulse s).rstN = s.rstN := rfl
@[simp] theorem beginPulse_sample (s : State) : (beginPulse s).sample = s.sample := rfl
@[simp] theorem beginPulse_hist (s : State) : (beginPulse s).hist = s.hist := rfl
@[simp] theorem beginPulse_cyc (s : State) : (beginPulse s).cyc = s.cyc := rfl
@[simp] theorem beginPulse_pcnt (s : State) : (beginPulse s).pcnt = s.pcnt := rfl
@[simp] theorem beginPulse_ph (s : State) : (beginPulse s).ph = s.ph := rfl
@[simp] theorem beginPulse_wAddr (s : State) : (beginPulse s).wAddr = s.wAddr := rfl
@[simp] theorem beginPulse_record (s : State) : (beginPulse s).record = s.record := rfl
@[simp] theorem beginPulse_mm (s : State) : (beginPulse s).mm = s.mm := rfl
@[simp] theorem beginPulse_csum (s : State) : (beginPulse s).csum = s.csum := rfl
@[simp] theorem beginPulse_pIdx (s : State) : (beginPulse s).pIdx = s.pIdx := rfl
@[simp] theorem beginPulse_page (s : State) : (beginPulse s).page = s.page := rfl
@[simp] theorem beginPulse_opr (s : State) : (beginPulse s).opr = s.opr := rfl
@[simp] theorem beginPulse_arg (s : State) : (beginPulse s).arg = s.arg := rfl
@[simp] theorem beginPulse_st (s : State) : (beginPulse s).st = .plo := rfl
@[simp] theorem beginPulse_log (s : State) : (beginPulse s).log = .line .fall :: s.log := rfl
@[simp] theorem beginPulse_cfg (s : State) : (beginPulse s).cfg = s.cfg := rfl
@[simp] theorem beginPulse_ops (s : State) : (beginPulse s).ops = s.ops := rfl
@[simp] theorem beginPulse_answers (s : State) : (beginPulse s).answers = s.answers := rfl
@[simp] theorem beginPulse_draws (s : State) : (beginPulse s).draws = s.draws := rfl
@[simp] theorem beginPulse_resetMark (s : State) : (beginPulse s).resetMark = s.resetMark := rfl
@[simp] theorem beginPulse_resetReq (s : State) : (beginPulse s).resetReq = s.resetReq := rfl

/-! `lowHalf` -/

@[simp] theorem lowHalf_clk (s : State) : (lowHalf s).clk = true := rfl
@[simp] theorem lowHalf_rstN (s : State) : (lowHalf s).rstN = s.rstN := rfl
@[simp] theorem lowHalf_sample (s : State) : (lowHalf s).sample = s.sample := rfl
@[simp] theorem lowHalf_hist (s : State) : (lowHalf s).hist = s.hist := rfl
@[simp] theorem lowHalf_cyc (s : State) : (lowHalf s).cyc = s.cyc := rfl
@[simp] theorem lowHalf_pcnt (s : State) : (lowHalf s).pcnt = s.pcnt := rfl
@[simp] theorem lowHalf_ph (s : State) : (lowHalf s).ph = s.ph := rfl
@[simp] theorem lowHalf_wAddr (s : State) : (lowHalf s).wAddr = s.wAddr := rfl
@[simp] theorem lowHalf_record (s : State) : (lowHalf s).record = s.record := rfl
@[simp] theorem lowHalf_mm (s : State) : (lowHalf s).mm = s.mm := rfl
@[simp] theorem lowHalf_csum (s : State) : (lowHalf s).csum = s.csum := rfl
@[simp] theorem lowHalf_pIdx (s : State) : (lowHalf s).pIdx = s.pIdx := rfl
@[simp] theorem lowHalf_page (s : State) : (lowHalf s).page = s.page := rfl
@[simp] theorem lowHalf_opr (s : State) : (lowHalf s).opr = s.opr := rfl
@[simp] theorem lowHalf_arg (s : State) : (lowHalf s).arg = s.arg := rfl
@[simp] theorem lowHalf_st (s : State) : (lowHalf s).st = .phi := rfl
@[simp] theorem lowHalf_log (s : State) : (lowHalf s).log = .line .rise :: s.log := rfl
@[simp] theorem lowHalf_cfg (s : State) : (lowHalf s).cfg = s.cfg := rfl
@[simp] theorem lowHalf_ops (s : State) : (lowHalf s).ops = s.ops := rfl
@[simp] theorem lowHalf_answers (s : State) : (lowHalf s).answers = s.answers := rfl
@[simp] theorem lowHalf_draws (s : State) : (lowHalf s).draws = s.draws := rfl
@[simp] theorem lowHalf_resetMark (s : State) : (lowHalf s).resetMark = s.resetMark := rfl
@[simp] theorem lowHalf_resetReq (s : State) : (lowHalf s).resetReq = s.resetReq := rfl

/-! `latch` -/

@[simp] theorem latch_clk (i : Instr) (s : State) : (latch i s).clk = s.clk := rfl
@[simp] theorem latch_rstN (i : Instr) (s : State) : (latch i s).rstN = s.rstN := rfl
@[simp] theorem latch_sample (i : Instr) (s : State) : (latch i s).sample = s.sample := rfl
@[simp] theorem latch_hist (i : Instr) (s : State) : (latch i s).hist = s.hist := rfl
@[simp] theorem latch_cyc (i : Instr) (s : State) : (latch i s).cyc = s.cyc := rfl
@[simp] theorem latch_pcnt (i : Instr) (s : State) : (latch i s).pcnt = s.pcnt := rfl
@[simp] theorem latch_ph (i : Instr) (s : State) : (latch i s).ph = s.ph := rfl
@[simp] theorem latch_wAddr (i : Instr) (s : State) : (latch i s).wAddr = s.wAddr := rfl
@[simp] theorem latch_record (i : Instr) (s : State) : (latch i s).record = s.record := rfl
@[simp] theorem latch_mm (i : Instr) (s : State) : (latch i s).mm = s.mm := rfl
@[simp] theorem latch_csum (i : Instr) (s : State) : (latch i s).csum = s.csum := rfl
@[simp] theorem latch_pIdx (i : Instr) (s : State) : (latch i s).pIdx = s.pIdx := rfl
@[simp] theorem latch_page (i : Instr) (s : State) : (latch i s).page = s.page := rfl
@[simp] theorem latch_opr (i : Instr) (s : State) : (latch i s).opr = i.opcode.extractLsb' 0 3 := rfl
@[simp] theorem latch_arg (i : Instr) (s : State) : (latch i s).arg = i.operand := rfl
@[simp] theorem latch_st (i : Instr) (s : State) : (latch i s).st = s.st := rfl
@[simp] theorem latch_log (i : Instr) (s : State) : (latch i s).log = s.log := rfl
@[simp] theorem latch_cfg (i : Instr) (s : State) : (latch i s).cfg = s.cfg := rfl
@[simp] theorem latch_ops (i : Instr) (s : State) : (latch i s).ops = s.ops := rfl
@[simp] theorem latch_answers (i : Instr) (s : State) : (latch i s).answers = s.answers := rfl
@[simp] theorem latch_draws (i : Instr) (s : State) : (latch i s).draws = s.draws := rfl
@[simp] theorem latch_resetMark (i : Instr) (s : State) : (latch i s).resetMark = s.resetMark := rfl
@[simp] theorem latch_resetReq (i : Instr) (s : State) : (latch i s).resetReq = s.resetReq := rfl

/-! `assemble` -/

@[simp] theorem assemble_clk (s : State) : (assemble s).clk = s.clk := rfl
@[simp] theorem assemble_rstN (s : State) : (assemble s).rstN = s.rstN := rfl
@[simp] theorem assemble_sample (s : State) : (assemble s).sample = s.sample := rfl
@[simp] theorem assemble_hist (s : State) : (assemble s).hist = s.hist := rfl
@[simp] theorem assemble_cyc (s : State) : (assemble s).cyc = s.cyc := rfl
@[simp] theorem assemble_pcnt (s : State) : (assemble s).pcnt = s.pcnt := rfl
@[simp] theorem assemble_ph (s : State) : (assemble s).ph = s.ph := rfl
@[simp] theorem assemble_wAddr (s : State) : (assemble s).wAddr = s.wAddr := rfl
@[simp] theorem assemble_record (s : State) :
    (assemble s).record =
      #v[(s.histAt s.cfg.aPh).hc, (s.histAt s.cfg.aPh).al, (s.histAt s.cfg.dPh).hc, (s.histAt s.cfg.dPh).al] := rfl
@[simp] theorem assemble_mm (s : State) : (assemble s).mm = ((s.histAt s.cfg.aPh).hc != (s.histAt s.cfg.dPh).hc) := rfl
@[simp] theorem assemble_csum (s : State) : (assemble s).csum = s.csum := rfl
@[simp] theorem assemble_pIdx (s : State) : (assemble s).pIdx = s.pIdx := rfl
@[simp] theorem assemble_page (s : State) : (assemble s).page = s.page := rfl
@[simp] theorem assemble_opr (s : State) : (assemble s).opr = s.opr := rfl
@[simp] theorem assemble_arg (s : State) : (assemble s).arg = s.arg := rfl
@[simp] theorem assemble_st (s : State) : (assemble s).st = s.st := rfl
@[simp] theorem assemble_log (s : State) : (assemble s).log = s.log := rfl
@[simp] theorem assemble_cfg (s : State) : (assemble s).cfg = s.cfg := rfl
@[simp] theorem assemble_ops (s : State) : (assemble s).ops = s.ops := rfl
@[simp] theorem assemble_answers (s : State) : (assemble s).answers = s.answers := rfl
@[simp] theorem assemble_draws (s : State) : (assemble s).draws = s.draws := rfl
@[simp] theorem assemble_resetMark (s : State) : (assemble s).resetMark = s.resetMark := rfl
@[simp] theorem assemble_resetReq (s : State) : (assemble s).resetReq = s.resetReq := rfl

/-! `seedWalk` -/

@[simp] theorem seedWalk_clk (s : State) : (seedWalk s).clk = s.clk := rfl
@[simp] theorem seedWalk_rstN (s : State) : (seedWalk s).rstN = s.rstN := rfl
@[simp] theorem seedWalk_sample (s : State) : (seedWalk s).sample = s.sample := rfl
@[simp] theorem seedWalk_hist (s : State) : (seedWalk s).hist = s.hist := rfl
@[simp] theorem seedWalk_cyc (s : State) : (seedWalk s).cyc = s.cyc := rfl
@[simp] theorem seedWalk_pcnt (s : State) : (seedWalk s).pcnt = s.pcnt := rfl
@[simp] theorem seedWalk_ph (s : State) : (seedWalk s).ph = s.ph := rfl
@[simp] theorem seedWalk_wAddr (s : State) : (seedWalk s).wAddr = 0#13 := rfl
@[simp] theorem seedWalk_record (s : State) : (seedWalk s).record = s.record := rfl
@[simp] theorem seedWalk_mm (s : State) : (seedWalk s).mm = s.mm := rfl
@[simp] theorem seedWalk_csum (s : State) : (seedWalk s).csum = 0x81#8 := rfl
@[simp] theorem seedWalk_pIdx (s : State) : (seedWalk s).pIdx = 0#7 := rfl
@[simp] theorem seedWalk_page (s : State) : (seedWalk s).page = s.page := rfl
@[simp] theorem seedWalk_opr (s : State) : (seedWalk s).opr = s.opr := rfl
@[simp] theorem seedWalk_arg (s : State) : (seedWalk s).arg = s.arg := rfl
@[simp] theorem seedWalk_st (s : State) : (seedWalk s).st = s.st := rfl
@[simp] theorem seedWalk_log (s : State) : (seedWalk s).log = s.log := rfl
@[simp] theorem seedWalk_cfg (s : State) : (seedWalk s).cfg = s.cfg := rfl
@[simp] theorem seedWalk_ops (s : State) : (seedWalk s).ops = s.ops := rfl
@[simp] theorem seedWalk_answers (s : State) : (seedWalk s).answers = s.answers := rfl
@[simp] theorem seedWalk_draws (s : State) : (seedWalk s).draws = s.draws := rfl
@[simp] theorem seedWalk_resetMark (s : State) : (seedWalk s).resetMark = s.resetMark := rfl
@[simp] theorem seedWalk_resetReq (s : State) : (seedWalk s).resetReq = s.resetReq := rfl

/-! `illegalOp` -/

@[simp] theorem illegalOp_clk (w : Word) (s : State) : (illegalOp w s).clk = s.clk := rfl
@[simp] theorem illegalOp_rstN (w : Word) (s : State) : (illegalOp w s).rstN = s.rstN := rfl
@[simp] theorem illegalOp_sample (w : Word) (s : State) : (illegalOp w s).sample = s.sample := rfl
@[simp] theorem illegalOp_hist (w : Word) (s : State) : (illegalOp w s).hist = s.hist := rfl
@[simp] theorem illegalOp_cyc (w : Word) (s : State) : (illegalOp w s).cyc = s.cyc := rfl
@[simp] theorem illegalOp_pcnt (w : Word) (s : State) : (illegalOp w s).pcnt = s.pcnt := rfl
@[simp] theorem illegalOp_ph (w : Word) (s : State) : (illegalOp w s).ph = s.ph := rfl
@[simp] theorem illegalOp_wAddr (w : Word) (s : State) : (illegalOp w s).wAddr = s.wAddr := rfl
@[simp] theorem illegalOp_record (w : Word) (s : State) : (illegalOp w s).record = s.record := rfl
@[simp] theorem illegalOp_mm (w : Word) (s : State) : (illegalOp w s).mm = s.mm := rfl
@[simp] theorem illegalOp_csum (w : Word) (s : State) : (illegalOp w s).csum = s.csum := rfl
@[simp] theorem illegalOp_pIdx (w : Word) (s : State) : (illegalOp w s).pIdx = s.pIdx := rfl
@[simp] theorem illegalOp_page (w : Word) (s : State) : (illegalOp w s).page = s.page := rfl
@[simp] theorem illegalOp_opr (w : Word) (s : State) : (illegalOp w s).opr = s.opr := rfl
@[simp] theorem illegalOp_arg (w : Word) (s : State) : (illegalOp w s).arg = s.arg := rfl
@[simp] theorem illegalOp_st (w : Word) (s : State) : (illegalOp w s).st = s.st := rfl
@[simp] theorem illegalOp_log (w : Word) (s : State) :
    (illegalOp w s).log = .out (.rsp .errIllegalOp (packWord w)) :: s.log := rfl
@[simp] theorem illegalOp_cfg (w : Word) (s : State) : (illegalOp w s).cfg = s.cfg := rfl
@[simp] theorem illegalOp_ops (w : Word) (s : State) : (illegalOp w s).ops = s.ops := rfl
@[simp] theorem illegalOp_answers (w : Word) (s : State) : (illegalOp w s).answers = s.answers := rfl
@[simp] theorem illegalOp_draws (w : Word) (s : State) : (illegalOp w s).draws = s.draws := rfl
@[simp] theorem illegalOp_resetMark (w : Word) (s : State) : (illegalOp w s).resetMark = s.resetMark := rfl
@[simp] theorem illegalOp_resetReq (w : Word) (s : State) : (illegalOp w s).resetReq = s.resetReq := rfl

/-! `rulePulse` -/

@[simp] theorem rulePulse_clk (s : State) : (rulePulse s).clk = true := rfl
@[simp] theorem rulePulse_rstN (s : State) : (rulePulse s).rstN = s.rstN := rfl
@[simp] theorem rulePulse_sample (s : State) : (rulePulse s).sample = s.sample := rfl
@[simp] theorem rulePulse_hist (s : State) : (rulePulse s).hist = s.hist := rfl
@[simp] theorem rulePulse_cyc (s : State) : (rulePulse s).cyc = s.cyc := rfl
@[simp] theorem rulePulse_pcnt (s : State) : (rulePulse s).pcnt = pcntNext s.pcnt := rfl
@[simp] theorem rulePulse_ph (s : State) : (rulePulse s).ph = s.ph := rfl
@[simp] theorem rulePulse_wAddr (s : State) : (rulePulse s).wAddr = s.wAddr := rfl
@[simp] theorem rulePulse_record (s : State) : (rulePulse s).record = s.record := rfl
@[simp] theorem rulePulse_mm (s : State) : (rulePulse s).mm = s.mm := rfl
@[simp] theorem rulePulse_csum (s : State) : (rulePulse s).csum = s.csum := rfl
@[simp] theorem rulePulse_pIdx (s : State) : (rulePulse s).pIdx = s.pIdx := rfl
@[simp] theorem rulePulse_page (s : State) : (rulePulse s).page = s.page := rfl
@[simp] theorem rulePulse_opr (s : State) : (rulePulse s).opr = s.opr := rfl
@[simp] theorem rulePulse_arg (s : State) : (rulePulse s).arg = s.arg := rfl
@[simp] theorem rulePulse_st (s : State) : (rulePulse s).st = s.st := rfl
@[simp] theorem rulePulse_log (s : State) : (rulePulse s).log = .line .rise :: .line .fall :: s.log := rfl
@[simp] theorem rulePulse_cfg (s : State) : (rulePulse s).cfg = s.cfg := rfl
@[simp] theorem rulePulse_ops (s : State) : (rulePulse s).ops = s.ops := rfl
@[simp] theorem rulePulse_answers (s : State) : (rulePulse s).answers = s.answers := rfl
@[simp] theorem rulePulse_draws (s : State) : (rulePulse s).draws = s.draws := rfl
@[simp] theorem rulePulse_resetMark (s : State) : (rulePulse s).resetMark = s.resetMark := rfl
@[simp] theorem rulePulse_resetReq (s : State) : (rulePulse s).resetReq = s.resetReq := rfl

end Sys2Proof.Machine
end

