-- ==== Sys2Proof/Laws/Ops.lean ====
section
/-! SUPPORT. For each shared operation, what it can do, said once: the traces, the target's answers, the pulse engine, the
record store, the page flush and block reset. -/

namespace Sys2Proof.Machine

/-! ## Traces -/

@[simp] theorem lineEvents_nil : lineEvents [] = [] := rfl
@[simp] theorem outEvents_nil : outEvents [] = [] := rfl

@[simp] theorem lineEvents_line (e : LineEvent) (log : List Event) :
    lineEvents (.line e :: log) = lineEvents log ++ [e] := by
  simp [lineEvents]

@[simp] theorem lineEvents_out (e : OutEvent) (log : List Event) : lineEvents (.out e :: log) = lineEvents log := by
  simp [lineEvents]

@[simp] theorem outEvents_line (e : LineEvent) (log : List Event) : outEvents (.line e :: log) = outEvents log := by
  simp [outEvents]

@[simp] theorem outEvents_out (e : OutEvent) (log : List Event) :
    outEvents (.out e :: log) = outEvents log ++ [e] := by
  simp [outEvents]

@[simp] theorem lineEvents_append (new old : List Event) :
    lineEvents (new ++ old) = lineEvents old ++ lineEvents new := by
  simp [lineEvents]

@[simp] theorem outEvents_append (new old : List Event) : outEvents (new ++ old) = outEvents old ++ outEvents new := by
  simp [outEvents]

theorem lineTrace_eq (s : State) : s.lineTrace = lineEvents s.log := rfl
theorem outTrace_eq (s : State) : s.outTrace = outEvents s.log := rfl
theorem trace_eq (s : State) : s.trace = s.log.reverse := rfl

theorem lineTrace_cons_line {s t : State} {e : LineEvent} (h : t.log = .line e :: s.log) :
    t.lineTrace = s.lineTrace ++ [e] := by
  simp [lineTrace_eq, h]

theorem lineTrace_cons_out {s t : State} {e : OutEvent} (h : t.log = .out e :: s.log) :
    t.lineTrace = s.lineTrace := by
  simp [lineTrace_eq, h]

theorem outTrace_cons_line {s t : State} {e : LineEvent} (h : t.log = .line e :: s.log) :
    t.outTrace = s.outTrace := by
  simp [outTrace_eq, h]

theorem outTrace_cons_out {s t : State} {e : OutEvent} (h : t.log = .out e :: s.log) :
    t.outTrace = s.outTrace ++ [e] := by
  simp [outTrace_eq, h]

theorem trace_cons {s t : State} {e : Event} (h : t.log = e :: s.log) : t.trace = s.trace ++ [e] := by
  simp [trace_eq, h]

@[simp] theorem driveClk_lineTrace (b : Bool) (s : State) :
    (driveClk b s).lineTrace = s.lineTrace ++ [if b then .rise else .fall] :=
  lineTrace_cons_line rfl

@[simp] theorem driveRst_lineTrace (b : Bool) (s : State) :
    (driveRst b s).lineTrace = s.lineTrace ++ [if b then .rstHigh else .rstLow] :=
  lineTrace_cons_line rfl

@[simp] theorem takeSample_lineTrace (s : State) : (takeSample s).lineTrace = s.lineTrace ++ [.smp] :=
  lineTrace_cons_line rfl

@[simp] theorem beginPulse_lineTrace (s : State) : (beginPulse s).lineTrace = s.lineTrace ++ [.fall] :=
  lineTrace_cons_line rfl

@[simp] theorem lowHalf_lineTrace (s : State) : (lowHalf s).lineTrace = s.lineTrace ++ [.rise] :=
  lineTrace_cons_line rfl

@[simp] theorem respond_lineTrace (st : Status) (v : BitVec 32) (s : State) :
    (respond st v s).lineTrace = s.lineTrace :=
  lineTrace_cons_out (e := .rsp st v) rfl

@[simp] theorem respond_outTrace (st : Status) (v : BitVec 32) (s : State) :
    (respond st v s).outTrace = s.outTrace ++ [.rsp st v] :=
  outTrace_cons_out rfl

@[simp] theorem finish_lineTrace (st : Status) (v : BitVec 32) (s : State) :
    (finish st v s).lineTrace = s.lineTrace :=
  lineTrace_cons_out (e := .rsp st v) rfl

@[simp] theorem finish_outTrace (st : Status) (v : BitVec 32) (s : State) :
    (finish st v s).outTrace = s.outTrace ++ [.rsp st v] :=
  outTrace_cons_out rfl

/-! ## The target's answers -/

/-- After a pin read the target's answers are the same sequence from its second one on. -/
@[simp] theorem takeSample_pinsAt (s : State) (j : Nat) : (takeSample s).pinsAt j = s.pinsAt (j + 1) := by
  have h : s.draws + 1 + j = s.draws + (j + 1) := by omega
  cases ha : s.answers <;> simp [State.pinsAt, ha, h, List.getD]

/-- The answers depend on the fixed ones and on the counter alone. -/
theorem pinsAt_congr {s t : State} (ha : t.answers = s.answers) (hd : t.draws = s.draws) (j : Nat) :
    t.pinsAt j = s.pinsAt j := by
  simp [State.pinsAt, ha, hd]

/-! ## The latches -/

@[simp] theorem opr_clkp (n : Arg) : (Instr.clkp n).opcode.extractLsb' 0 3 = 1#3 := rfl
@[simp] theorem opr_samp : Instr.samp.opcode.extractLsb' 0 3 = 2#3 := rfl
@[simp] theorem opr_trst : Instr.trst.opcode.extractLsb' 0 3 = 3#3 := rfl
@[simp] theorem opr_seek (a : Arg) : (Instr.seek a).opcode.extractLsb' 0 3 = 4#3 := rfl
@[simp] theorem opr_capt : Instr.capt.opcode.extractLsb' 0 3 = 5#3 := rfl
@[simp] theorem opr_walk : Instr.walk.opcode.extractLsb' 0 3 = 6#3 := rfl

/-! ## The history file -/

theorem histAt_writeHist_self (p : Phase) (s : State) : (writeHist p s).histAt p = s.sample := by
  simp [State.histAt]

theorem histAt_writeHist_ne {p q : Phase} (h : p ≠ q) (s : State) : (writeHist p s).histAt q = s.histAt q := by
  have : p.toNat ≠ q.toNat := fun e => h (BitVec.eq_of_toNat_eq e)
  simp [State.histAt, this]

/-! ## The pulse engine -/

/-- A burst of no pulses ends at once; any other begins with a `Fall` (43_sequencer_fsm.md R131). -/
theorem startPulses_cases (k : Arg) (after : State → State) (s : State) :
    (k = 0#12 ∧ startPulses k after s = after { s with pcnt := 0#12 }) ∨
      (k ≠ 0#12 ∧ startPulses k after s = beginPulse { s with pcnt := k }) := by
  unfold startPulses
  split
  · next h => exact .inl ⟨h, by rw [h]⟩
  · next h => exact .inr ⟨h, rfl⟩

theorem startPulses_pos {k : Arg} (h : k ≠ 0#12) (after : State → State) (s : State) :
    startPulses k after s = beginPulse { s with pcnt := k } := by
  simp [startPulses, h]

/-- The high half ends a pulse: the burst is over, or the next pulse begins (43_sequencer_fsm.md R133). -/
theorem highHalf_cases (after : State → State) (s : State) :
    (pcntNext s.pcnt = 0#12 ∧ highHalf after s = after { s with pcnt := 0#12 }) ∨
      (pcntNext s.pcnt ≠ 0#12 ∧ highHalf after s = beginPulse { s with pcnt := pcntNext s.pcnt }) := by
  unfold highHalf
  simp only [wait_eq]
  split
  · next h => exact .inl ⟨h, by rw [h]⟩
  · next h => exact .inr ⟨h, rfl⟩

/-- The last pulse of a burst. -/
theorem highHalf_one {s : State} (h : s.pcnt = 1#12) (after : State → State) :
    highHalf after s = after { s with pcnt := 0#12 } := by
  simp [highHalf, pcntNext, h]

/-- In a capture one pulse follows each sample (42_dump_engine.md R111, decision D12). -/
theorem phaseSample_eq (s : State) :
    phaseSample s = beginPulse { writeHist s.ph (takeSample s) with pcnt := 1#12 } :=
  startPulses_pos (by decide) _ _

/-- One pulse of a loop program ends with the clock high and the count 0; it changes nothing else but the trace
(40_bus_sampler.md R80). -/
theorem rulePulses_one (s : State) :
    rulePulses 1#12 s =
      { s with clk := true, pcnt := 0#12, log := .line .rise :: .line .fall :: s.log } := by
  show rulePulseLoop (0 + 1) _ = _
  simp [rulePulseLoop, rulePulse, driveClk, emit, pcntNext]

/-! ## The record store -/

theorem memWrite_eq {idx : Nat} (h : idx < 64) (v : Byte) (s : State) :
    memWrite idx v s = some { s with page := Page.write s.page idx v } := by
  simp [memWrite, Config.pageSize, h]

theorem memWrite_none {idx : Nat} (h : 64 ≤ idx) (v : Byte) (s : State) : memWrite idx v s = none := by
  have : ¬ idx < 64 := by omega
  simp [memWrite, Config.pageSize, this]

/-- The page with a record stored from index `i` on (42_dump_engine.md R117). -/
def pageWithRecord (p : Page) (i : Nat) (r : Vector Byte 4) : Page :=
  ((((p.write i r[0]).write (i + 1) r[1]).write (i + 2) r[2]).write (i + 3) r[3])

/-- The four stores write the record and nothing else, when all four indices exist. -/
theorem storeBytes_eq {s : State} (h : s.pIdx.toNat + 3 < 64) :
    storeBytes s = some { s with page := pageWithRecord s.page s.pIdx.toNat s.record } := by
  have h0 : s.pIdx.toNat < 64 := by omega
  have h1 : s.pIdx.toNat + 1 < 64 := by omega
  have h2 : s.pIdx.toNat + 2 < 64 := by omega
  simp [storeBytes, memWrite_eq, h0, h1, h2, h, pageWithRecord]

/-- The stores stop when an index would be outside the page (20_memory.md R44). -/
theorem storeBytes_none {s : State} (h : 64 ≤ s.pIdx.toNat + 3) : storeBytes s = none := by
  unfold storeBytes memWrite Config.pageSize
  by_cases h0 : s.pIdx.toNat < 64 <;> by_cases h1 : s.pIdx.toNat + 1 < 64 <;>
    by_cases h2 : s.pIdx.toNat + 2 < 64 <;> (simp [h0, h1, h2]; try omega)

/-- A record store answers a state exactly when its indices exist, and then it is this one. -/
theorem storeBytes_some_iff (s t : State) :
    storeBytes s = some t ↔
      s.pIdx.toNat + 3 < 64 ∧ t = { s with page := pageWithRecord s.page s.pIdx.toNat s.record } := by
  by_cases h : s.pIdx.toNat + 3 < 64
  · simp [storeBytes_eq h, h, eq_comm]
  · simp [storeBytes_none (by omega : 64 ≤ s.pIdx.toNat + 3), h]

theorem pageWithRecord_wf {p : Page} (hp : Page.wf p = true) {i : Nat} (hi : i + 3 < 64) (r : Vector Byte 4) :
    Page.wf (pageWithRecord p i r) = true := by
  unfold pageWithRecord
  exact Page.write_wf (Page.write_wf (Page.write_wf (Page.write_wf hp (by omega)) (by omega)) (by omega)) hi

/-- What a page reads after a record store: the record in its four places, the old bytes elsewhere. -/
theorem read_pageWithRecord {p : Page} (hp : Page.wf p = true) {i : Nat} (hi : i + 3 < 64) (r : Vector Byte 4)
    (j : Nat) :
    Page.read (pageWithRecord p i r) j =
      if j = i + 3 then r[3] else if j = i + 2 then r[2] else if j = i + 1 then r[1] else if j = i then r[0]
      else Page.read p j := by
  have h0 := Page.write_wf (v := r[0]) hp (by omega : i < 64)
  have h1 := Page.write_wf (v := r[1]) h0 (by omega : i + 1 < 64)
  have h2 := Page.write_wf (v := r[2]) h1 (by omega : i + 2 < 64)
  unfold pageWithRecord
  rw [Page.read_write h2, Page.read_write h1, Page.read_write h0, Page.read_write hp]
  simp only [eq_comm (b := j)]

/-! ## Diagnostics, flush and count -/

theorem emitDiag_eq (s : State) :
    emitDiag s = { s with log := if s.mm then .out (.diag s.wAddr) :: s.log else s.log } := by
  unfold emitDiag
  split <;> rfl

theorem flushPage_eq (s : State) :
    flushPage s =
      { s with
        log := if s.pIdx.toNat = 64 then .out (.pageOut (Page.bytes s.page)) :: s.log else s.log
        pIdx := if s.pIdx.toNat = 64 then 0#7 else s.pIdx } := by
  unfold flushPage Config.pageSize
  split <;> rfl

/-- The count of a record writes `PIDX`, `CSUM`, `WADDR` and the trace, and nothing else. -/
theorem countRecord_eq (s : State) :
    countRecord s =
      { s with
        log :=
          (if (s.pIdx + 4#7).toNat = 64 then [Event.out (.pageOut (Page.bytes s.page))] else []) ++
            ((if s.mm then [Event.out (.diag s.wAddr)] else []) ++ s.log)
        pIdx := if (s.pIdx + 4#7).toNat = 64 then 0#7 else s.pIdx + 4#7
        csum := csumNext s.wAddr s.record[3] s.csum
        wAddr := wAddrNext s.wAddr } := by
  simp only [countRecord, emitDiag_eq, flushPage_eq]
  congr 1
  split <;> split <;> rfl

/-! ## Block reset -/

/-- The events a block reset records, newest first: one for each line it finds low (60_exceptions.md R155). -/
def releaseEvents (s : State) : List Event :=
  let c := if s.clk then [] else [Event.line .rise]
  let r := if s.rstN then [] else [Event.line .rstHigh]
  if s.cfg.riseFirst then r ++ c else c ++ r

/-- Block reset leaves the reset state, but for the trace, the board, the words waiting and the target's answers. -/
theorem blockReset_eq (s : State) :
    blockReset s =
      { State.reset with
        log := releaseEvents s ++ s.log, resetMark := (lineEvents (releaseEvents s ++ s.log)).length, cfg := s.cfg
        ops := s.ops, answers := s.answers, draws := s.draws } := by
  have h : (if s.cfg.riseFirst then releaseRst (releaseClk s) else releaseClk (releaseRst s)).log =
      releaseEvents s ++ s.log := by
    unfold releaseEvents releaseClk releaseRst
    cases hf : s.cfg.riseFirst <;> cases hc : s.clk <;> cases hr : s.rstN <;> simp [hc, hr]
  simp only [blockReset, lineTrace_eq, h]

end Sys2Proof.Machine
end

