-- ==== Sys2Proof/Laws/PerInstr.lean ====
section
/-! SUPPORT. Lemmas for all operations, one per constructor. -/

namespace Sys2Proof.Laws

/-- The word of an operation keeps its opcode in bits 15..12 and its operand in bits 11..0 (30_encoding.md R60). -/
def WordFields.Statement (i : Instr) : Prop := opcField (encode i) = i.opcode ∧ argField (encode i) = i.operand

theorem fields_of_append (o : BitVec 4) (a : Arg) : opcField (o ++ a) = o ∧ argField (o ++ a) = a := by
  constructor
  · ext i hi
    have h : (o ++ a : BitVec (4 + 12)).getLsbD (12 + i) = o[i] := by
      rw [BitVec.getLsbD_append]
      simp [hi]
    simpa [opcField] using h
  · ext i hi
    have h : (o ++ a : BitVec (4 + 12)).getLsbD i = a[i] := by
      rw [BitVec.getLsbD_append]
      simp [hi]
    simpa [argField] using h

theorem WordFields.clkp (n : Arg) : WordFields.Statement (.clkp n) := fields_of_append 1#4 n
theorem WordFields.samp : WordFields.Statement .samp := fields_of_append 2#4 0#12
theorem WordFields.trst : WordFields.Statement .trst := fields_of_append 3#4 0#12
theorem WordFields.seek (a : Arg) : WordFields.Statement (.seek a) := fields_of_append 4#4 a
theorem WordFields.capt : WordFields.Statement .capt := fields_of_append 5#4 0#12
theorem WordFields.walk : WordFields.Statement .walk := fields_of_append 6#4 0#12

end Sys2Proof.Laws
end

