-- ==== Sys2Proof/Laws/Step.lean ====
section
/-! SUPPORT. What a step can do, said once, and the calculus of several steps. -/

namespace Sys2Proof.Machine

@[simp] theorem lineLevels_nil : lineLevels [] = some (true, true) := rfl

/-- The levels after one more event. -/
@[simp] theorem lineLevels_snoc (l : List LineEvent) (e : LineEvent) :
    lineLevels (l ++ [e]) = lineNext (lineLevels l) e := by
  simp [lineLevels]

/-- The index of A-SCRIPT depends on the line trace and the mark of the last block reset alone. -/
theorem scriptIndex_congr {s t : State} (hl : t.lineTrace = s.lineTrace) (hm : t.resetMark = s.resetMark) :
    t.scriptIndex = s.scriptIndex := by
  simp [State.scriptIndex, hl, hm]

theorem fetch_eq (s : State) :
    fetch s = match s.ops with
      | [] => none
      | w :: rest => some (w, { s with ops := rest }) := rfl

/-- Every way a step can answer a next state: block reset, waiting in `IDLE`, answering an illegal word, accepting an
operation, or one transition of the operation in progress. -/
theorem step_cases {s t : State} (h : step s = .next t) :
    (s.resetReq = true ∧ t = blockReset s) ∨
    (s.resetReq = false ∧ s.st = .idle ∧ s.ops = [] ∧ t = s) ∨
    (s.resetReq = false ∧ s.st = .idle ∧ ∃ w rest e, s.ops = w :: rest ∧ decode w = .error e ∧
      t = illegalOp w { s with ops := rest }) ∨
    (s.resetReq = false ∧ s.st = .idle ∧ ∃ w rest i, s.ops = w :: rest ∧ decode w = .ok i ∧
      exec i { s with ops := rest } = .next t) ∨
    (s.resetReq = false ∧ s.st ≠ .idle ∧ ∃ i, s.running = some i ∧ exec i s = .next t) := by
  unfold step at h
  split at h
  · next hr => exact .inl ⟨hr, by cases h; rfl⟩
  next hr =>
  have hr : s.resetReq = false := by simpa using hr
  split at h
  · next hi =>
    refine .inr ?_
    unfold stepIdle at h
    rw [fetch_eq] at h
    cases ho : s.ops with
    | nil =>
      simp only [ho] at h
      cases h
      exact .inl ⟨hr, hi, rfl, rfl⟩
    | cons w rest =>
      simp only [ho] at h
      cases hd : decode w with
      | ok i =>
        simp only [hd] at h
        exact .inr (.inr (.inl ⟨hr, hi, w, rest, i, rfl, hd, h⟩))
      | error e =>
        simp only [hd] at h
        cases h
        exact .inr (.inl ⟨hr, hi, w, rest, e, rfl, hd, rfl⟩)
  · next hi =>
    unfold stepBusy at h
    cases hrun : s.running with
    | none => simp [hrun] at h
    | some i =>
      simp only [hrun] at h
      exact .inr (.inr (.inr (.inr ⟨hr, hi, i, rfl, h⟩)))

/-- A step outside `IDLE` is the transition of the operation in progress. -/
theorem step_busy {s : State} {i : Instr} (hr : s.resetReq = false) (hi : s.st ≠ .idle)
    (hrun : s.running = some i) : step s = exec i s := by
  simp [step, stepBusy, hr, hi, hrun]

@[simp] theorem steps_zero (s : State) : steps 0 s = .next s := rfl

theorem steps_succ_of_next {s t : State} (h : step s = .next t) (n : Nat) : steps (n + 1) s = steps n t := by
  simp [steps, h]

/-- Runs compose. -/
theorem runsTo_trans {m n : Nat} {s t u : State} (h1 : runsTo m s t) (h2 : runsTo n t u) : runsTo (m + n) s u := by
  induction m generalizing s with
  | zero =>
    cases h1
    simpa using h2
  | succ m ih =>
    have e : m + 1 + n = m + n + 1 := by omega
    rw [e]
    unfold runsTo steps at h1 ⊢
    cases hs : step s with
    | next s1 =>
      rw [hs] at h1
      exact ih h1
    | fault r => simp [hs] at h1
    | refused r => simp [hs] at h1

/-- One step is a run of length one. -/
theorem runsTo_one {s t : State} (h : step s = .next t) : runsTo 1 s t := steps_succ_of_next h 0

/-- An invariant that every step keeps holds along every run. -/
theorem keeps_of_step {P : State → Prop} (hstep : ∀ s t, P s → step s = .next t → P t) {n : Nat} {s t : State}
    (hs : P s) (h : runsTo n s t) : P t := by
  induction n generalizing s with
  | zero => cases h; exact hs
  | succ n ih =>
    unfold runsTo steps at h
    cases hst : step s with
    | next s1 =>
      rw [hst] at h
      exact ih (hstep s s1 hs hst) h
    | fault r => simp [hst] at h
    | refused r => simp [hst] at h

/-- From a state that steps to itself nothing else is reached. -/
theorem reaches_fixed {s t : State} (h : step s = .next s) (hr : reaches s t) : t = s := by
  obtain ⟨n, hn⟩ := hr
  induction n with
  | zero => cases hn; rfl
  | succ n ih => exact ih ((steps_succ_of_next h n).symm.trans hn)

/-- What a state reaches is itself and what its next state reaches. -/
theorem reaches_cases {s s1 t : State} (h : step s = .next s1) (hr : reaches s t) : t = s ∨ reaches s1 t := by
  obtain ⟨n, hn⟩ := hr
  cases n with
  | zero => cases hn; exact .inl rfl
  | succ n => exact .inr ⟨n, (steps_succ_of_next h n).symm.trans hn⟩

end Sys2Proof.Machine
end

