-- ==== Sys2Proof/Tests/Slice0.lean ====
section
/-! SUPPORT. The model's own tests. Expected values come from the spec: its encoding table (30_encoding.md R62) and the
vectors of 95_test_vectors.md, named beside each. The last part shows, for each statement with hypotheses, a concrete state
that meets them. -/

namespace Sys2Proof.Tests

open Sys2Proof Sys2Proof.Machine

/-! ## Fixtures (95_test_vectors.md section 1) -/

/-- The identity permutation. -/
def permId : BitPerm := ⟨#v[0, 1, 2, 3, 4, 5, 6, 7], by decide⟩
/-- `P_REV`. -/
def permRev : BitPerm := ⟨#v[7, 6, 5, 4, 3, 2, 1, 0], by decide⟩
/-- `P_ROT`. -/
def permRot : BitPerm := ⟨#v[1, 2, 3, 4, 5, 6, 7, 0], by decide⟩

/-- The reference configuration, with a permutation of choice. -/
def board (p : BitPerm) : Config :=
  { perm := p, tLowUs := 1, tHighUs := 1, resetPulses := 8#12, aPh := 0#2, dPh := 2#2, riseFirst := true }

/-- An idle BCU on the reference board with these words presented and these answers fixed. -/
def idleWith (ops : List Word) (answers : List Pins) : State :=
  { State.reset with cfg := board permId, ops := ops, answers := answers }

/-- A busy BCU on the reference board: the latched opcode, the state, the line levels, and the events that led to them. -/
def busy (opr : BitVec 3) (st : SeqState) (clk rstN : Bool) (log : List Event) : State :=
  { State.reset with cfg := board permId, opr := opr, st := st, clk := clk, rstN := rstN, log := log }

/-- The next state, or the reset state where the outcome is none. -/
def nextOf (o : Host.Outcome State Fault Refusal) : State :=
  match o with
  | .next s => s
  | .fault _ => State.reset
  | .refused _ => State.reset

/-! ## Well-formedness: each check refuses an ill-formed term -/

-- V-ILL
theorem test_illegal_words :
    [0x0000#16, 0x0FFF#16, 0x7000#16, 0x8000#16, 0xFFFF#16, 0x2001#16, 0x3001#16, 0x5ABC#16, 0x6001#16].all
      (fun w => !legalWord w) = true := by decide
-- V-ILL, legal edge words
theorem test_legal_words :
    [0x1000#16, 0x1FFF#16, 0x4000#16, 0x4FFF#16, 0x2000#16, 0x3000#16, 0x5000#16, 0x6000#16].all legalWord = true := by
  decide
-- V-PERM, last paragraph
theorem test_perm_not_bijective : permTableOk [0, 0, 2, 3, 4, 5, 6, 7] = false := by decide
theorem test_perm_out_of_range : permTableOk [0, 1, 2, 3, 4, 5, 6, 8] = false := by decide
theorem test_perm_rot_ok : permTableOk [1, 2, 3, 4, 5, 6, 7, 0] = true := by decide
-- 20_memory.md R47
theorem test_page_layout : pageLayoutOk Config.pageSize Config.recBytes = true ∧ pageLayoutOk 62 4 = false := by decide
theorem test_instr_wf : (Instr.clkp 4095#12).wf = true ∧ Instr.walk.wf = true := by decide
theorem test_page_wf : Page.wf [(3, 1#8), (63, 2#8)] = true ∧ Page.wf [(3, 1#8), (3, 2#8)] = false ∧
    Page.wf [(64, 1#8)] = false ∧ Page.wf [(5, 0#8)] = false := by decide

/-! ## Decoding: the words of the table, bit by bit (30_encoding.md R62) -/

theorem test_decode_clkp : decode 0b0001000000000011#16 = .ok (.clkp 3#12) := by decide
theorem test_decode_samp : decode 0b0010000000000000#16 = .ok .samp := by decide
theorem test_decode_trst : decode 0b0011000000000000#16 = .ok .trst := by decide
theorem test_decode_seek : decode 0b0100000000000101#16 = .ok (.seek 5#12) := by decide
theorem test_decode_capt : decode 0b0101000000000000#16 = .ok .capt := by decide
theorem test_decode_walk : decode 0b0110000000000000#16 = .ok .walk := by decide
theorem test_decode_illegal : decode 0x2001#16 = .error (.operandNotZero "SAMP" 1#12) ∧
    decode 0x8000#16 = .error (.illegalOpcode 8#4) := by decide
theorem test_encode : encode (.clkp 3#12) = 0x1003#16 ∧ encode (.seek 0xFFF#12) = 0x4FFF#16 ∧
    encode .walk = 0x6000#16 := by decide
-- the pseudo-operation DUMP (30_encoding.md R70)
theorem test_dump_words : (Instr.dump 0x005#12 0x000#12).map encode = [0x3000#16, 0x4005#16, 0x4000#16, 0x6000#16] := by
  decide
theorem test_table_word : decodeTableWord 16 0x4FFF = some (.seek 0xFFF#12) ∧ decodeTableWord 16 0x7000 = none := by
  decide
-- the first operation after reset is the word placed for it
theorem test_first_step_samp :
    (nextOf (step (State.reset.withFetchWord 16 0x2000))).st = .smp ∧
      (nextOf (step (State.reset.withFetchWord 16 0x2000))).opr = 2#3 := by decide

/-! ## Functions -/

-- V-PERM
theorem test_perm_rev : perm8 permRev 0x12#8 = 0x48#8 ∧ perm8 permRev 0x01#8 = 0x80#8 := by decide
theorem test_perm_rot : perm8 permRot 0xA5#8 = 0xD2#8 ∧ perm8 permRot 0x01#8 = 0x80#8 := by decide
-- V-SEEK-7: the five samples of target TQ against 0x234
theorem test_qual :
    [(⟨0x34, 0x02, false, false⟩ : Sample), ⟨0x34, 0x02, true, true⟩, ⟨0x35, 0x02, false, true⟩, ⟨0x34, 0x03, false, true⟩,
      ⟨0x34, 0xA2, false, true⟩].map (fun s => qual s 0x234#12) = [false, false, false, false, true] := by decide
-- 43_sequencer_fsm.md R141: 0x81 + 0x80 = 0x01, and the reserved region does not count
theorem test_csum : csumNext 128#13 0x80#8 0x81#8 = 0x01#8 ∧ csumNext 127#13 0x80#8 0x81#8 = 0x81#8 := by decide

/-! ## One step of each operation -/

-- V-CLKP-2: no line event, the response at once
theorem test_clkp_zero : (nextOf (step (idleWith [0x1000#16] []))).log = [.out (.rsp .ok 0#32)] := by decide
-- V-CLKP-1, its last step: PHI with one pulse left
theorem test_clkp_last :
    (nextOf (step { busy 1#3 .phi true true [.line .rise, .line .fall] with pcnt := 1#12 })).outTrace =
      [.rsp .ok 0#32] := by decide
-- V-SAMP-1
theorem test_samp_rev :
    (nextOf (exec .samp { busy 2#3 .smp true true [] with
      cfg := board permRev, answers := [⟨0x12, 0xA3, false, true⟩] })).outTrace = [.rsp .ok 0x0002A348#32] := by decide
-- V-SAMP-4
theorem test_samp_rot :
    (nextOf (exec .samp { busy 2#3 .smp true true [] with
      cfg := board permRot, answers := [⟨0xA5, 0x0F, true, false⟩] })).outTrace = [.rsp .ok 0x00010FD2#32] := by decide
-- V-TRST-1, its first step
theorem test_trst_first :
    (nextOf (step (idleWith [0x3000#16] []))).lineTrace = [.rstLow, .fall] ∧
      (nextOf (step (idleWith [0x3000#16] []))).pcnt = 8#12 := by decide
-- V-TRST-2
theorem test_trst_no_pulses :
    (nextOf (exec .trst { idleWith [] [] with cfg := { board permId with resetPulses := 0#12 } })).lineTrace =
      [.rstLow, .rstHigh] := by decide
-- V-SEEK-7, its last step: control bits are ignored, the answer is the pulse count
theorem test_seek_match :
    (nextOf (step { busy 4#3 .smp true true [] with
      arg := 0x234#12, cyc := 4#32, answers := [⟨0x34, 0xA2, false, true⟩] })).outTrace = [.rsp .ok 4#32] := by decide
-- V-SEEK-7, its first sample: no match with STROBE 0, the pulse begins in the same step
theorem test_seek_no_match :
    (nextOf (step { busy 4#3 .smp true true [] with
      arg := 0x234#12, answers := [⟨0x34, 0x02, false, false⟩] })).lineTrace = [.smp, .fall] := by decide
-- V-CAPT-2, its last step
theorem test_capt_mismatch :
    (nextOf (step { busy 5#3 .asm true true [] with
      ph := 3#2
      hist := #v[⟨0x03, 0x00, false, true⟩, ⟨0x03, 0x00, false, false⟩, ⟨0x0A, 0x10, false, false⟩,
        ⟨0x03, 0x00, false, false⟩] })).outTrace = [.rsp .okMismatch 0x0A100300#32] := by decide
-- V-CAPT-1: one phase step writes its own history entry
theorem test_capt_phase :
    (nextOf (step { busy 5#3 .smp true true [] with
      ph := 2#2, answers := [⟨0x10, 0x00, false, false⟩] })).hist[2].al = 0x10#8 := by decide
-- V-WALK-7: the store of record 15 gives Diag(15) before PageOut
theorem test_walk_diag_before_page :
    (nextOf (step { busy 6#3 .store true true [] with
      ph := 3#2, wAddr := 15#13, pIdx := 60#7, mm := true
      record := #v[0x00#8, 0x0F#8, 0x80#8, 0x2E#8] })).outTrace =
        [.diag 15#13, .pageOut (List.replicate 61 0#8 ++ [0x0F#8, 0x80#8, 0x2E#8])] := by decide
-- R119, R123: the last store of an all-0xFF walk ends it with 0x01
theorem test_walk_last :
    (nextOf (step { busy 6#3 .store true true [] with
      ph := 3#2, wAddr := 4095#13, pIdx := 60#7, csum := 0x02#8, record := #v[0x0F#8, 0xFF#8, 0x0F#8, 0xFF#8] })).st =
        .idle ∧
    (nextOf (step { busy 6#3 .store true true [] with
      ph := 3#2, wAddr := 4095#13, pIdx := 60#7, csum := 0x02#8, record := #v[0x0F#8, 0xFF#8, 0x0F#8, 0xFF#8] })).csum =
        0x01#8 := by decide
-- V-ILL
theorem test_illegal_answer : (nextOf (step (idleWith [0x5ABC#16] []))).log = [.out (.rsp .errIllegalOp 0x5ABC#32)] := by
  decide
-- 60_exceptions.md R155: block reset in the low half of a pulse, target reset held
theorem test_block_reset :
    (nextOf (step { busy 3#3 .plo false false [] with resetReq := true })).lineTrace = [.rise, .rstHigh] ∧
      (nextOf (step { busy 3#3 .plo false false [] with resetReq := true })).outTrace = [] := by decide
-- 00_scope.md R8: the script index counts from the last RstHigh, and from block reset when there is none
theorem test_script_index :
    State.scriptIndex { busy 1#3 .plo false true [.line .fall, .line .rise, .line .fall] with resetMark := 0 } = 1 ∧
      State.scriptIndex (nextOf (step { busy 1#3 .plo false true [.line .fall, .line .rise, .line .fall] with
        resetReq := true })) = 0 ∧
      State.scriptIndex { idleWith [] [] with
        log := [.line .rise, .line .fall, .line .rstHigh, .line .rise, .line .fall, .line .rstLow], resetMark := 6 } =
          1 := by decide
theorem test_off_path_stops : step (busy 2#3 .asm true true []) = .fault .noTransition := rfl
theorem test_no_operation_stops : step (busy 7#3 .phi true true []) = .fault .noOperation := rfl
theorem test_page_index_stops : step { busy 6#3 .store true true [] with pIdx := 62#7 } = .fault .pageIndex := rfl

/-! ## Witnesses: the hypotheses of the statements can be met -/

theorem inv_of_idle (ops : List Word) (answers : List Pins) : Inv (idleWith ops answers) :=
  ⟨rfl, rfl, ⟨nofun, fun _ => rfl⟩, fun _ => ⟨rfl, rfl, rfl, rfl⟩, nofun, nofun, nofun, nofun,
    nofun, Nat.zero_le _⟩

theorem ready_of_idle (i : Instr) (rest : List Word) (answers : List Pins) :
    Ready i rest (idleWith (encode i :: rest) answers) :=
  ⟨inv_of_idle _ _, rfl, rfl, rfl⟩

theorem witness_ready : Ready (.clkp 3#12) [] (idleWith [0x1003#16] []) ∧ Ready .samp [] (idleWith [0x2000#16] []) ∧
    Ready .trst [] (idleWith [0x3000#16] []) ∧ Ready (.seek 5#12) [] (idleWith [0x4005#16] []) ∧
    Ready .capt [] (idleWith [0x5000#16] []) ∧ Ready .walk [] (idleWith [0x6000#16] []) :=
  ⟨ready_of_idle _ _ _, ready_of_idle _ _ _, ready_of_idle _ _ _, ready_of_idle _ _ _, ready_of_idle _ _ _,
    ready_of_idle _ _ _⟩

theorem witness_clkp_twice : Ready (.clkp 2#12) [encode (.clkp 1#12)] (idleWith [0x1002#16, 0x1001#16] []) :=
  ready_of_idle _ _ _

theorem witness_presented : (idleWith [0x2000#16] []).resetReq = false ∧ (idleWith [0x2000#16] []).st = .idle ∧
    (idleWith [0x2000#16] []).ops = [0x2000#16] ∧ decode 0x2000#16 = .ok .samp := by decide

theorem witness_illegal : (idleWith [0x0000#16] []).resetReq = false ∧ (idleWith [0x0000#16] []).st = .idle ∧
    (idleWith [0x0000#16] []).ops = [0x0000#16] ∧ legalWord 0x0000#16 = false := by decide

theorem witness_waiting : State.reset.resetReq = false ∧ State.reset.st = .idle ∧ State.reset.ops = [] := by decide

theorem witness_latched : ∀ opr : BitVec 3, (busy opr .plo false true []).resetReq = false ∧
    (busy opr .plo false true []).st ≠ .idle ∧ (busy opr .plo false true []).opr = opr :=
  fun _ => ⟨rfl, nofun, rfl⟩

theorem witness_step_idle : step (idleWith [0x2000#16] []) = .next (nextOf (step (idleWith [0x2000#16] []))) := rfl
theorem witness_step_busy : step (busy 4#3 .plo false true []) = .next (nextOf (step (busy 4#3 .plo false true []))) := rfl

/-- `PLO`; `PHI` with a pulse to come; `PHI` at the end of the burst. -/
theorem witness_pulse : (busy 1#3 .plo false true []).st = .plo ∧
    (({ busy 1#3 .phi true true [] with pcnt := 2#12 } : State).st = .phi ∧ 2#12 ≠ 0#12 ∧ 2#12 - 1#12 ≠ 0#12) ∧
    (({ busy 1#3 .phi true true [] with pcnt := 1#12 } : State).st = .phi ∧ 1#12 - 1#12 = 0#12) := by decide

/-- `SMP` with a sample that matches and with one that does not. -/
theorem witness_sample :
    qual (remap permId (({ busy 4#3 .smp true true [] with
      answers := [⟨0x34, 0xA2, false, true⟩] } : State).pinsAt 0)) 0x234#12 = true ∧
    qual (remap permId (({ busy 4#3 .smp true true [] with
      answers := [⟨0x34, 0xA2, true, true⟩] } : State).pinsAt 0)) 0x234#12 = false := by decide

theorem witness_assemble : (busy 5#3 .asm true true []).st = .asm := rfl

/-- The last page index and the last walk index of the ranges, and the first ones outside them; `PHI` with `PCNT` 0. -/
theorem witness_store : (busy 6#3 .store true true []).st = .store ∧ (60#7).toNat ≤ 60 ∧ (4095#13).toNat ≤ 4095 ∧
    60 < (61#7).toNat ∧ 4095 < (4096#13).toNat ∧ (busy 1#3 .phi true true []).st = .phi ∧
    (busy 1#3 .phi true true []).pcnt = 0#12 ∧ Instr.walk ≠ .samp := by decide

theorem witness_on_path : onPath (.clkp 1#12) .plo = true ∧ onPath .walk .store = true ∧ onPath .capt .store = false ∧
    onPath .samp .phi = false := by decide

/-- The second sample is the first that matches. -/
theorem witness_seek :
    (idleWith [0x4005#16] [⟨4, 0, false, true⟩, ⟨5, 0, false, true⟩]).matchesAt 5#12 1 = true ∧
      (∀ j, j < 1 → (idleWith [0x4005#16] [⟨4, 0, false, true⟩, ⟨5, 0, false, true⟩]).matchesAt 5#12 j = false) := by
  decide

theorem witness_seek_goes_on :
    ∀ j, j < 2 → (idleWith [0x4005#16] [⟨4, 0, false, true⟩, ⟨5, 0, false, false⟩]).matchesAt 5#12 j = false := by
  decide

/-- The loop program of SEEK ends and does not end within its bound. -/
theorem witness_seek_rule :
    (∃ r, ruleSeek 1 5#12 (idleWith [0x4005#16] [⟨5, 0, false, true⟩]) = .ended r) ∧
      ∃ r, ruleSeek 1 5#12 (idleWith [0x4005#16] [⟨4, 0, false, true⟩]) = .going r :=
  ⟨⟨_, rfl⟩, ⟨_, rfl⟩⟩

/-- The target that always shows address 5 qualified. -/
def five : Pins := ⟨5, 0, false, true⟩

/-- One SEEK under A-SCRIPT with a constant script. -/
theorem witness_a_script : AScript (fun _ => five) (idleWith [0x4005#16] [five]) := by
  have h : ∀ t, reaches (idleWith [0x4005#16] [five]) t → readsPins t → t.pinsAt 0 = five := by
    intro t hr hp
    rcases reaches_cases rfl hr with rfl | hr
    · exact absurd hp.2 (by decide)
    rcases reaches_cases rfl hr with rfl | hr
    · rfl
    cases reaches_fixed rfl hr
    exact absurd hp.2 (by decide)
  exact ⟨⟨fun _ => five, h⟩, h⟩

theorem witness_a_script_period : (∀ j, (fun _ : Nat => five) (j + 1) = (fun _ : Nat => five) j) ∧
    qual (remap (idleWith [0x4005#16] [five]).cfg.perm five) 5#12 = true :=
  ⟨fun _ => rfl, by decide⟩

/-- Two SEEKs of the same address under A-SYNC, and the state between them. -/
theorem witness_a_sync_seek : ASync (idleWith [0x4005#16, 0x4005#16] [five, five]) ∧
    ∃ t, runsTo 2 (idleWith [0x4005#16, 0x4005#16] [five, five]) t ∧ t.st = .idle ∧ t.ops = [0x4005#16] := by
  refine ⟨⟨fun _ => five, fun t hr hp => ?_⟩, _, rfl, by decide, by decide⟩
  rcases reaches_cases rfl hr with rfl | hr
  · exact absurd hp.2 (by decide)
  rcases reaches_cases rfl hr with rfl | hr
  · rfl
  rcases reaches_cases rfl hr with rfl | hr
  · exact absurd hp.2 (by decide)
  rcases reaches_cases rfl hr with rfl | hr
  · rfl
  cases reaches_fixed rfl hr
  exact absurd hp.2 (by decide)

/-- Two SAMPs under A-SYNC. -/
theorem witness_a_sync_samp : ASync (idleWith [0x2000#16, 0x2000#16] [five, five]) := by
  refine ⟨fun _ => five, fun t hr hp => ?_⟩
  rcases reaches_cases rfl hr with rfl | hr
  · exact absurd hp.2 (by decide)
  rcases reaches_cases rfl hr with rfl | hr
  · rfl
  rcases reaches_cases rfl hr with rfl | hr
  · exact absurd hp.2 (by decide)
  rcases reaches_cases rfl hr with rfl | hr
  · rfl
  cases reaches_fixed rfl hr
  exact absurd hp.2 (by decide)

theorem perm_id (x : Byte) : perm8 permId x = x := by
  revert x; decide

theorem pinsAt_of_lt {ops : List Word} {n j : Nat} {f : Nat → Pins} (h : j < n) :
    (idleWith ops ((List.range n).map f)).pinsAt j = f j := by
  simp [State.pinsAt, idleWith, List.getD, h]

/-- The answers of a target that shows address `i` and the data byte `i mod 256` in every phase of capture `i`. -/
def ramp (k : Nat) : Pins := ⟨BitVec.ofNat 8 (k / 4), BitVec.ofNat 8 (k / 4 / 256), false, true⟩

theorem ramp_sample {ops : List Word} {i p : Nat} (hi : i < 4096) (hp : p < 4) :
    (idleWith ops ((List.range 16384).map ramp)).sampleAt (4 * i + p) =
      ⟨BitVec.ofNat 8 i, BitVec.ofNat 8 (i / 256), false, true⟩ := by
  have h4 : (4 * i + p) / 4 = i := by omega
  have hperm : (idleWith ops ((List.range 16384).map ramp)).cfg.perm = permId := rfl
  simp only [State.sampleAt, hperm, remap, pinsAt_of_lt (show 4 * i + p < 16384 by omega), ramp, perm_id, h4]

/-- A whole walk that meets the premises of the round trip. -/
theorem witness_round_trip :
    let s := idleWith [0x6000#16] ((List.range 16384).map ramp)
    Ready .walk [] s ∧ ∀ i, i < 4096 →
      (s.sampleAt (4 * i + s.cfg.aPh.toNat)).hc = BitVec.ofNat 8 (i / 256) ∧
        (s.sampleAt (4 * i + s.cfg.aPh.toNat)).al = BitVec.ofNat 8 i ∧
        (s.sampleAt (4 * i + s.cfg.dPh.toNat)).hc = BitVec.ofNat 8 (i / 256) ∧
        (s.sampleAt (4 * i + s.cfg.dPh.toNat)).al = BitVec.ofNat 8 i := by
  refine ⟨ready_of_idle _ _ _, fun i hi => ?_⟩
  have ha := ramp_sample (ops := [0x6000#16]) hi (show (0#2).toNat < 4 by decide)
  have hd := ramp_sample (ops := [0x6000#16]) hi (show (2#2).toNat < 4 by decide)
  exact ⟨congrArg Sample.hc ha, congrArg Sample.al ha, congrArg Sample.hc hd, congrArg Sample.al hd⟩

/-- A whole walk whose data bytes are all `d`. -/
theorem uniform_records (d : Byte) (i : Nat) (hi : i < 4096) :
    ((idleWith [0x6000#16] ((List.range 16384).map fun _ => ⟨d, 0, false, true⟩)).walkRecord i)[3] = d := by
  have h : (idleWith [0x6000#16] ((List.range 16384).map fun _ => ⟨d, 0, false, true⟩)).sampleAt (4 * i + 2) =
      ⟨d, 0, false, true⟩ := by
    have hperm : (idleWith [0x6000#16] ((List.range 16384).map fun _ => (⟨d, 0, false, true⟩ : Pins))).cfg.perm =
        permId := rfl
    simp only [State.sampleAt, hperm, remap, pinsAt_of_lt (show 4 * i + 2 < 16384 by omega), perm_id]
  exact congrArg Sample.al h

theorem witness_checksum :
    (∀ i, 128 ≤ i → i < 4096 →
      ((idleWith [0x6000#16] ((List.range 16384).map fun _ => ⟨0x00, 0, false, true⟩)).walkRecord i)[3] = 0x00#8) ∧
    ∀ i, 128 ≤ i → i < 4096 →
      ((idleWith [0x6000#16] ((List.range 16384).map fun _ => ⟨0xFF, 0, false, true⟩)).walkRecord i)[3] = 0xFF#8 :=
  ⟨fun i _ hi => uniform_records _ i hi, fun i _ hi => uniform_records _ i hi⟩

/-- Each operation answers a next state somewhere: acceptance of all six, and the store of a WALK. -/
theorem witness_frames :
    (∃ t, exec (.clkp 1#12) (idleWith [] []) = .next t) ∧ (∃ t, exec .trst (idleWith [] []) = .next t) ∧
      (∃ t, exec .samp (idleWith [] []) = .next t) ∧ (∃ t, exec (.seek 5#12) (idleWith [] []) = .next t) ∧
      (∃ t, exec .capt (busy 5#3 .smp true true []) = .next t) ∧
      ∃ t, exec .walk (busy 6#3 .store true true []) = .next t :=
  ⟨⟨_, rfl⟩, ⟨_, rfl⟩, ⟨_, rfl⟩, ⟨_, rfl⟩, ⟨_, rfl⟩, ⟨_, rfl⟩⟩

/-- The invariant holds in a state of each of the busy values of `ST`. -/
theorem witness_inv :
    Inv { busy 1#3 .plo false true [.line .fall] with pcnt := 5#12 } ∧
      Inv { busy 3#3 .phi true false [.line .rise, .line .fall, .line .rstLow] with pcnt := 8#12 } ∧
      Inv (busy 4#3 .smp true true []) ∧ Inv { busy 5#3 .asm true true [] with ph := 3#2 } ∧
      Inv { busy 6#3 .store true true [] with ph := 3#2, wAddr := 4095#13, pIdx := 60#7 } := by
  refine ⟨⟨rfl, rfl, ⟨nofun, fun _ => rfl⟩, nofun, fun _ => ?_, nofun, nofun, nofun, nofun, by decide⟩,
    ⟨rfl, rfl, ⟨nofun, fun _ => rfl⟩, nofun, nofun, fun _ => ?_, nofun, nofun, nofun, by decide⟩,
    ⟨rfl, rfl, ⟨nofun, fun _ => rfl⟩, nofun, nofun, nofun, fun _ => ?_, nofun, nofun, by decide⟩,
    ⟨rfl, rfl, ⟨nofun, fun _ => rfl⟩, nofun, nofun, nofun, nofun, fun _ => ?_, nofun, by decide⟩,
    ⟨rfl, rfl, ⟨fun _ => ?_, fun h => absurd rfl h⟩, nofun, nofun, nofun, nofun, nofun, fun _ => ?_, by decide⟩⟩
  · exact ⟨rfl, rfl, by decide, rfl, by decide⟩
  · exact ⟨rfl, rfl, by decide, rfl, by decide⟩
  · decide
  · decide
  · decide
  · decide

/-- A burst begins in `PLO`; a burst of a state of the invariant ends in `IDLE`. -/
theorem witness_pulse_ends :
    (nextOf (exec (.clkp 1#12) (idleWith [] []))).st = .plo ∧
      let s := { busy 1#3 .phi true true [.line .rise, .line .fall] with pcnt := 1#12 }
      Inv s ∧ step s = .next (nextOf (step s)) ∧ (nextOf (step s)).st = .idle := by
  refine ⟨by decide, ⟨rfl, rfl, ⟨nofun, fun _ => rfl⟩, nofun, nofun, fun _ => ?_, nofun, nofun, nofun, by decide⟩, rfl,
    by decide⟩
  exact ⟨rfl, rfl, by decide, rfl, by decide⟩

theorem witness_reset_requested : ({ busy 3#3 .plo false false [] with resetReq := true } : State).resetReq = true := rfl

/-- Two idle states that differ in the unspecified registers alone. -/
theorem witness_unspecified :
    let s := idleWith [0x6000#16] []
    let s' := { s with sample := ⟨1, 2, true, false⟩, record := #v[1, 2, 3, 4], page := [(0, 7#8)] }
    Inv s ∧ Inv s' ∧ s.st = .idle ∧ agreeButUnspecified s s' ∧ runsTo 1 s (nextOf (step s)) := by
  refine ⟨inv_of_idle _ _, ?_, rfl, rfl, rfl⟩
  exact ⟨rfl, rfl, ⟨nofun, fun _ => rfl⟩, fun _ => ⟨rfl, rfl, rfl, rfl⟩, nofun, nofun, nofun, nofun, nofun,
    Nat.zero_le _⟩

/-- A board with `A_PH = D_PH`, with CAPT or WALK presented. -/
theorem witness_same_phases (i : Instr) :
    let s := { idleWith [encode i] [] with cfg := { board permId with dPh := 0#2 } }
    Ready i [] s ∧ s.cfg.aPh = s.cfg.dPh := by
  refine ⟨⟨?_, rfl, rfl, rfl⟩, rfl⟩
  exact ⟨rfl, rfl, ⟨nofun, fun _ => rfl⟩, fun _ => ⟨rfl, rfl, rfl, rfl⟩, nofun, nofun, nofun, nofun, nofun,
    Nat.zero_le _⟩

end Sys2Proof.Tests
end

section
/-! PROOFS. The acceptance of a presented operation, a burst of the pulse engine run from its start to its `AfterPulses`,
and CLKP as a whole (40_bus_sampler.md). -/

namespace Sys2Proof.Machine

/-! ## Acceptance (43_sequencer_fsm.md R132) -/

/-- The two fields of the word of an operation are its opcode and its operand (30_encoding.md R60). -/
theorem wordFields : ∀ i : Instr, Laws.WordFields.Statement i
  | .clkp n => Laws.WordFields.clkp n
  | .samp => Laws.WordFields.samp
  | .trst => Laws.WordFields.trst
  | .seek a => Laws.WordFields.seek a
  | .capt => Laws.WordFields.capt
  | .walk => Laws.WordFields.walk

/-- The word of an operation decodes to it: its fields select the decoder's branch (30_encoding.md R62). -/
theorem decode_encode (i : Instr) : decode (encode i) = .ok i := by
  obtain ⟨hopc, harg⟩ := wordFields i
  unfold decode
  rw [hopc, harg]
  cases i <;> rfl

/-- In `IDLE` a step takes the next word presented and runs the operation it decodes to. -/
theorem step_accepts {s : State} {w : Word} {rest : List Word} {i : Instr} (hr : s.resetReq = false)
    (hi : s.st = .idle) (ho : s.ops = w :: rest) (hd : decode w = .ok i) :
    step s = exec i { s with ops := rest } := by
  simp [step, stepIdle, fetch_eq, hr, hi, ho, hd]

/-- The first step of a whole operation accepts its word. -/
theorem step_ready {i : Instr} {rest : List Word} {s : State} (h : Ready i rest s) :
    step s = exec i { s with ops := rest } :=
  step_accepts h.noReset h.idle h.ops (decode_encode i)

/-! ## A burst (43_sequencer_fsm.md R131, R133) -/

theorem pulseEvents_succ (n : Nat) : pulseEvents (n + 1) = .fall :: .rise :: pulseEvents n := by
  simp [pulseEvents, List.replicate_succ]

/-- `exec i` issues pulses that end in `after`, which itself decides the next state of the sequencer: the operations of
43_sequencer_fsm.md R131 with their `AfterPulses`. -/
structure PulsesThen (i : Instr) (after : State → State) : Prop where
  low : ∀ s : State, s.st = .plo → exec i s = .next (lowHalf s)
  high : ∀ s : State, s.st = .phi → exec i s = .next (highHalf after s)
  setsSt : ∀ (s : State) (x : SeqState), after { s with st := x } = after s

theorem clkp_pulsesThen (n : Arg) : PulsesThen (.clkp n) clkpDone where
  low s h := by simp [exec, execClkp, h]
  high s h := by simp [exec, execClkp, h]
  setsSt _ _ := rfl

/-- What a burst of `n` pulses leaves of a state with `CLK` high: the count is spent, the trace has `n` pulses more. -/
def pulsed (n : Nat) (s : State) : State :=
  { s with pcnt := 0#12, log := ((pulseEvents n).map .line).reverse ++ s.log }

/-- The state at the end of the high half of a pulse that began in `s`, before `PCNT` is counted down. -/
def pulseOver (s : State) : State :=
  { s with clk := true, st := .phi, log := .line .rise :: .line .fall :: s.log }

/-- The first pulse of a burst and the `n` after it are a burst of `n + 1`. -/
theorem pulsed_pulseOver {s : State} (hc : s.clk = true) (n : Nat) (k : Arg) :
    pulsed n (pulseOver { s with pcnt := k }) = { pulsed (n + 1) s with st := .phi } := by
  simp [pulsed, pulseOver, pulseEvents_succ, hc]

/-- The end of a pulse starts the rest of its burst, which may be no pulses. -/
theorem highHalf_eq_startPulses (after : State → State) (s : State) :
    highHalf after s = startPulses (pcntNext s.pcnt) after s := rfl

/-- One pulse takes two steps, and then the rest of the burst starts. -/
theorem beginPulse_runsTo {i : Instr} {after : State → State} (hp : PulsesThen i after) {s : State}
    (hr : s.resetReq = false) (hrun : s.running = some i) :
    runsTo 2 (beginPulse s) (startPulses (pcntNext s.pcnt) after (pulseOver s)) := by
  have hlow : step (beginPulse s) = .next (pulseOver s) :=
    (step_busy (s := beginPulse s) hr (nomatch ·) hrun).trans (hp.low _ rfl)
  have hhigh : step (pulseOver s) = .next (startPulses (pcntNext s.pcnt) after (pulseOver s)) := by
    rw [step_busy (s := pulseOver s) hr (nomatch ·) hrun, hp.high _ rfl, highHalf_eq_startPulses]
    rfl
  exact runsTo_trans (runsTo_one hlow) (runsTo_one hhigh)

/-- A burst of `k` pulses, none included, takes `2k` steps to its `AfterPulses`. -/
theorem startPulses_runsTo {i : Instr} {after : State → State} (hp : PulsesThen i after) {n : Nat} {k : Arg}
    {s : State} (hk : k.toNat = n) (hr : s.resetReq = false) (hrun : s.running = some i) (hc : s.clk = true) :
    runsTo (2 * n) (startPulses k after s) (after (pulsed n s)) := by
  induction n generalizing k s with
  | zero =>
    obtain rfl : k = 0#12 := BitVec.eq_of_toNat_eq hk
    rfl
  | succ n ih =>
    have hpos : k ≠ 0#12 := by
      rintro rfl
      simp at hk
    have hnext : (pcntNext k).toNat = n := by
      unfold pcntNext
      bv_omega
    have hfirst := beginPulse_runsTo hp (s := { s with pcnt := k }) hr hrun
    have hrest := ih (s := pulseOver { s with pcnt := k }) hnext hr hrun rfl
    rw [pulsed_pulseOver hc, hp.setsSt] at hrest
    rw [startPulses_pos hpos, show 2 * (n + 1) = 2 + 2 * n by omega]
    exact runsTo_trans hfirst hrest

/-! ## CLKP (40_bus_sampler.md R81) -/

/-- The acceptance of CLKP starts its burst. -/
theorem exec_clkp_idle {s : State} (h : s.st = .idle) (n : Arg) :
    exec (.clkp n) s = .next (startPulses n clkpDone (latch (.clkp n) s)) := by
  simp [exec, execClkp, h]

/-- The end of CLKP `n`: its word accepted, its operand latched, its pulses and its response in the trace; what an idle
state holds elsewhere is as before. -/
theorem clkpDone_pulsed {s : State} {n : Arg} {rest : List Word} (h : Ready (.clkp n) rest s) (k : Nat) :
    clkpDone (pulsed k (latch (.clkp n) { s with ops := rest })) =
      { s with
        ops := rest, arg := n
        log := .out (.rsp .ok 0#32) :: (((pulseEvents k).map .line).reverse ++ s.log) } := by
  obtain ⟨-, -, hpcnt, hopr⟩ := h.inv.idle h.idle
  simp [clkpDone, finish, respond, emit, pulsed, latch, Instr.operand, hpcnt, hopr, h.idle]

/-- CLKP `n` takes `2n + 1` steps: its acceptance, then two for each pulse. -/
theorem clkp_runsTo {s : State} {n : Arg} {rest : List Word} (h : Ready (.clkp n) rest s) :
    runsTo (2 * n.toNat + 1) s
      { s with
        ops := rest, arg := n
        log := .out (.rsp .ok 0#32) :: (((pulseEvents n.toNat).map .line).reverse ++ s.log) } := by
  obtain ⟨hclk, -, -, -⟩ := h.inv.idle h.idle
  have haccept := (step_ready h).trans (exec_clkp_idle (s := { s with ops := rest }) h.idle n)
  have hburst := startPulses_runsTo (clkp_pulsesThen n) (s := latch (.clkp n) { s with ops := rest })
    (k := n) rfl h.noReset rfl hclk
  rw [clkpDone_pulsed h] at hburst
  exact (steps_succ_of_next haccept _).trans hburst

/-- Settles O16: the acceptance of CLKP `n` and the burst lemma `startPulses_runsTo`, by induction on the pulses left. -/
theorem clkpIssuesExactlyItsPulses : Obligations.ClkpIssuesExactlyItsPulses := by
  intro s n rest h
  obtain ⟨hclk, -, hpcnt, -⟩ := h.inv.idle h.idle
  exact ⟨_, clkp_runsTo h, rfl, hclk, hpcnt, by simp [trace_eq]⟩

end Sys2Proof.Machine
end

section
/-! PROOFS. The strobe matcher and the address it compares (41_cycle_search.md R100, 40_bus_sampler.md R86). -/

namespace Sys2Proof.Machine

/-- The match predicate as the conjunction of its three conditions (41_cycle_search.md R100). -/
theorem qual_iff (s : Sample) (t : Arg) : qual s t = true ↔ s.stb = true ∧ s.num = false ∧ addr12 s = t := by
  simp [qual, and_assoc]

/-- The value of the sampled address: the low four bits of `hc` are its high digit in base 256
(40_bus_sampler.md R86). -/
theorem addr12_toNat (s : Sample) : (addr12 s).toNat = s.hc.toNat % 16 * 256 + s.al.toNat := by
  have hlow : (s.hc.extractLsb' 0 4).toNat = s.hc.toNat % 16 := by simp
  calc (addr12 s).toNat
      = (s.hc.toNat % 16) <<< 8 ||| s.al.toNat := by rw [addr12, BitVec.toNat_append, hlow]
    _ = (s.hc.toNat % 16) <<< 8 + s.al.toNat := (Nat.shiftLeft_add_eq_or_of_lt s.al.isLt _).symm
    _ = s.hc.toNat % 16 * 256 + s.al.toNat := by rw [Nat.shiftLeft_eq]

/-- The sampled address depends on `hc` through its low four bits alone (40_bus_sampler.md R86, decision D8). -/
theorem addr12_of_hc_mod {s : Sample} {hc : Byte} (h : hc.toNat % 16 = s.hc.toNat % 16) :
    addr12 { s with hc := hc } = addr12 s := by
  apply BitVec.eq_of_toNat_eq
  rw [addr12_toNat, addr12_toNat, h]

/-- The matcher reads nothing of a sample but `stb`, `num` and the sampled address. -/
theorem qual_congr {s s' : Sample} (haddr : addr12 s' = addr12 s) (hstb : s'.stb = s.stb) (hnum : s'.num = s.num)
    (t : Arg) : qual s' t = qual s t := by
  rw [Bool.eq_iff_iff, qual_iff, qual_iff, hstb, hnum, haddr]

/-- Settles O45: the three conditions of `qual`, the value of `addr12`, and that neither reads the control bits. -/
theorem matchNeedsAllThreeConditions : Obligations.MatchNeedsAllThreeConditions := by
  intro s t
  refine ⟨qual_iff s t, addr12_toNat s, fun hc h => ?_⟩
  have haddr : addr12 { s with hc := hc } = addr12 s := addr12_of_hc_mod h
  exact qual_congr haddr rfl rfl t

end Sys2Proof.Machine
end

section
/-! PROOFS. The capture and CAPT as a whole (42_dump_engine.md R111 to R113): what the loop program of a capture computes
from the target's answers, and that the sequencer runs it. -/

namespace Sys2Proof.Machine

/-! ## The target's answers from a later moment -/

/-- After `n` pin reads the `j`-th answer from there on is the `(n + j)`-th from the start. -/
theorem sampleAt_of_drop {s t : State} {n : Nat} (hcfg : t.cfg = s.cfg) (ha : t.answers = s.answers.drop n)
    (hd : t.draws = s.draws + n) (j : Nat) : t.sampleAt j = s.sampleAt (n + j) := by
  simp [State.sampleAt, State.pinsAt, hcfg, ha, hd, List.getD, Nat.add_assoc]

/-- The record of an address sample and a data sample (42_dump_engine.md R112). -/
def recordOf (a d : Sample) : Vector Byte 4 := #v[a.hc, a.al, d.hc, d.al]

theorem recordAt_eq (s : State) (j : Nat) :
    s.recordAt j = recordOf (s.sampleAt (j + s.cfg.aPh.toNat)) (s.sampleAt (j + s.cfg.dPh.toNat)) := rfl

theorem assemble_eq (s : State) :
    assemble s =
      { s with
        record := recordOf (s.histAt s.cfg.aPh) (s.histAt s.cfg.dPh)
        mm := mismatch (recordOf (s.histAt s.cfg.aPh) (s.histAt s.cfg.dPh)) } := rfl

/-- After `n` pin reads the record of a capture is that of the answers from the `n`-th on. -/
theorem recordAt_of_drop {s t : State} {n : Nat} (hcfg : t.cfg = s.cfg) (ha : t.answers = s.answers.drop n)
    (hd : t.draws = s.draws + n) (j : Nat) : t.recordAt j = s.recordAt (n + j) := by
  rw [recordAt_eq, recordAt_eq, sampleAt_of_drop hcfg ha hd, sampleAt_of_drop hcfg ha hd, hcfg, Nat.add_assoc,
    Nat.add_assoc]

theorem phaseEvents_add (m n : Nat) : phaseEvents (m + n) = phaseEvents m ++ phaseEvents n := by
  rw [phaseEvents, List.replicate_add, List.flatten_append]
  rfl

@[simp] theorem lineEvents_map_line (l : List LineEvent) : lineEvents (l.map .line).reverse = l := by
  simp [lineEvents]

@[simp] theorem outEvents_map_line (l : List LineEvent) : outEvents (l.map .line).reverse = [] := by
  simp [outEvents]

/-! ## A capture as a loop program (42_dump_engine.md R111, R112) -/

/-- What one phase writes: the sample, its history entry, and one pulse. -/
theorem rulePhase_eq (s : State) :
    rulePhase s =
      { s with
        clk := true, pcnt := 0#12, sample := s.sampleAt 0, hist := s.hist.set s.ph.toNat (s.sampleAt 0) s.ph.isLt
        answers := s.answers.drop 1, draws := s.draws + 1
        log := ((phaseEvents 1).map .line).reverse ++ s.log } := by
  rw [List.drop_one]
  exact rulePulses_one _

/-- The state after the four phases of a capture that starts in `s`, before its record is assembled. -/
def captured (s : State) : State :=
  { s with
    clk := true, pcnt := 0#12, ph := 3#2, sample := s.sampleAt 3
    hist := #v[s.sampleAt 0, s.sampleAt 1, s.sampleAt 2, s.sampleAt 3]
    answers := s.answers.drop 4, draws := s.draws + 4
    log := ((phaseEvents 4).map .line).reverse ++ s.log }

/-- All four entries of a history file written. -/
theorem set_four (h : Vector Sample 4) (a b c d : Sample) :
    (((h.set 0 a).set 1 b).set 2 c).set 3 d = #v[a, b, c, d] := by
  ext i hi : 1
  interval_cases i <;> simp

/-- The four phases, each from the state the one before it leaves. -/
theorem fourPhases_eq (s : State) :
    rulePhase (ruleNextPhase (rulePhase (ruleNextPhase (rulePhase (ruleNextPhase (rulePhase { s with ph := 0#2 }))))))
      = captured s := by
  simp [rulePhase_eq, ruleNextPhase, phNext, captured, set_four, phaseEvents, State.sampleAt, State.pinsAt,
    Nat.add_assoc]

theorem histAt_captured (s : State) (p : Phase) : (captured s).histAt p = s.sampleAt p.toNat := by
  have h : (captured s).hist = Vector.ofFn fun i : Fin 4 => s.sampleAt i := rfl
  simp [State.histAt, h]

/-- The record assembled after the four phases is the one the answers give (42_dump_engine.md R112). -/
theorem assemble_captured (s : State) :
    assemble (captured s) = { captured s with record := s.recordAt 0, mm := mismatch (s.recordAt 0) } := by
  rw [assemble_eq, histAt_captured, histAt_captured, recordAt_eq, Nat.zero_add, Nat.zero_add]
  rfl

theorem ruleCapture_eq (s : State) : ruleCapture s = assemble (captured s) := congrArg assemble (fourPhases_eq s)

/-! ## A capture in the sequencer (43_sequencer_fsm.md R131, R133, R134) -/

/-- `exec i` captures in `SMP`, with `AfterPulses` of a capture: CAPT and WALK. -/
structure Captures (i : Instr) : Prop where
  sample : ∀ s : State, s.st = .smp → exec i s = .next (phaseSample s)
  pulses : PulsesThen i afterPhase

theorem afterPhase_setsSt (s : State) (x : SeqState) : afterPhase { s with st := x } = afterPhase s := by
  unfold afterPhase
  split <;> rfl

theorem capt_captures : Captures .capt where
  sample s h := by simp [exec, execCapt, h]
  pulses :=
    { low := fun s h => by simp [exec, execCapt, h]
      high := fun s h => by simp [exec, execCapt, h]
      setsSt := afterPhase_setsSt }

theorem walk_captures : Captures .walk where
  sample s h := by simp [exec, execWalk, h]
  pulses :=
    { low := fun s h => by simp [exec, execWalk, h]
      high := fun s h => by simp [exec, execWalk, h]
      setsSt := afterPhase_setsSt }

/-- Operation `i` is the one in progress in `s` and no block reset is requested, whatever `ST` is. -/
structure Running (i : Instr) (s : State) : Prop where
  noReset : s.resetReq = false
  running : s.running = some i

/-- Outside `IDLE` the next step is the operation's own transition. -/
theorem Running.step {i : Instr} {s : State} (h : Running i s) (x : SeqState) (hx : x ≠ .idle) :
    step { s with st := x } = exec i { s with st := x } :=
  step_busy (s := { s with st := x }) h.noReset hx h.running

theorem Running.nextPhase {i : Instr} {s : State} (h : Running i s) : Running i (ruleNextPhase (rulePhase s)) := by
  rw [rulePhase_eq]
  exact ⟨h.noReset, h.running⟩

theorem nextPhase_ph (s : State) : (ruleNextPhase (rulePhase s)).ph = s.ph + 1#2 := by
  rw [rulePhase_eq]
  rfl

/-- A phase takes three steps, its sample and its pulse, to the state its loop program leaves. -/
theorem phase_runsTo {i : Instr} (hi : Captures i) {s : State} (h : Running i s) :
    runsTo 3 { s with st := .smp } (afterPhase (rulePhase s)) := by
  have hsample : step { s with st := .smp } =
      .next (beginPulse { writeHist s.ph (takeSample { s with st := .smp }) with pcnt := 1#12 }) := by
    rw [h.step .smp (nomatch ·), hi.sample _ rfl, phaseSample_eq]
  have hpulse := beginPulse_runsTo hi.pulses
    (s := { writeHist s.ph (takeSample { s with st := .smp }) with pcnt := 1#12 }) h.noReset h.running
  have hend : startPulses (pcntNext 1#12) afterPhase
      (pulseOver { writeHist s.ph (takeSample { s with st := .smp }) with pcnt := 1#12 }) =
      afterPhase (rulePhase s) := by
    rw [← afterPhase_setsSt (rulePhase s) .phi]
    rfl
  exact (steps_succ_of_next hsample 2).trans (hpulse.trans (congrArg _ hend))

/-- After a phase before the last the next phase follows. -/
theorem phase_runsTo_next {i : Instr} (hi : Captures i) {s : State} (h : Running i s) (hph : s.ph ≠ 3#2) :
    runsTo 3 { s with st := .smp } { ruleNextPhase (rulePhase s) with st := .smp } := by
  have hrest : afterPhase (rulePhase s) = { ruleNextPhase (rulePhase s) with st := .smp } := if_neg hph
  exact hrest ▸ phase_runsTo hi h

/-- After the last phase the record is assembled next. -/
theorem phase_runsTo_last {i : Instr} (hi : Captures i) {s : State} (h : Running i s) (hph : s.ph = 3#2) :
    runsTo 3 { s with st := .smp } { rulePhase s with st := .asm } := by
  have hrest : afterPhase (rulePhase s) = { rulePhase s with st := .asm } := if_pos hph
  exact hrest ▸ phase_runsTo hi h

/-- The four phases of a capture take twelve steps. -/
theorem capture_runsTo {i : Instr} (hi : Captures i) {s : State} (h : Running i s) :
    runsTo 12 { s with ph := 0#2, st := .smp } { captured s with st := .asm } := by
  have h0 : Running i { s with ph := 0#2 } := ⟨h.noReset, h.running⟩
  have r0 := phase_runsTo_next hi h0 (by simp)
  have r1 := phase_runsTo_next hi h0.nextPhase (by simp [nextPhase_ph])
  have r2 := phase_runsTo_next hi h0.nextPhase.nextPhase (by simp [nextPhase_ph])
  have r3 := phase_runsTo_last hi h0.nextPhase.nextPhase.nextPhase (by simp [nextPhase_ph])
  rw [fourPhases_eq] at r3
  exact runsTo_trans (runsTo_trans (runsTo_trans r0 r1) r2) r3

/-- A state of the loop programs as the sequencer holds it while operation `i` is in progress, whatever `ST` is: the loop
programs do not mention `OPR` and `ARG` (43_sequencer_fsm.md R140). -/
def inProgress (i : Instr) (rest : List Word) (r : State) : State :=
  { r with ops := rest, opr := i.opcode.extractLsb' 0 3, arg := i.operand }

/-! ## CAPT (42_dump_engine.md R113) -/

/-- The assembly that ends CAPT does not look at the latches or at `ST` (43_sequencer_fsm.md R135). -/
theorem captAssemble_inProgress (rest : List Word) (s : State) (x : SeqState) :
    captAssemble { inProgress .capt rest s with st := x } =
      atEnd .capt rest (respond (captStatus (assemble s).mm) (packRecord (assemble s).record) (assemble s)) := rfl

/-- CAPT takes fourteen steps, its acceptance, its four phases and its assembly, to the end of its loop program. -/
theorem capt_runsTo {s : State} {rest : List Word} (h : Ready .capt rest s) :
    runsTo 14 s (atEnd .capt rest (ruleCapt s)) := by
  have haccept : step s = .next { inProgress .capt rest s with ph := 0#2, st := .smp } := by
    rw [step_ready h]
    simp [exec, execCapt, h.idle, latch, inProgress]
  have hcapture := capture_runsTo capt_captures (s := inProgress .capt rest s) ⟨h.noReset, rfl⟩
  have hend : step { captured (inProgress .capt rest s) with st := .asm } =
      .next (atEnd .capt rest (ruleCapt s)) := by
    have hrun : Running .capt (captured (inProgress .capt rest s)) := ⟨h.noReset, rfl⟩
    rw [hrun.step .asm (nomatch ·), ruleCapt, ruleCapture_eq]
    exact congrArg Host.Outcome.next (captAssemble_inProgress rest (captured s) .asm)
  exact runsTo_trans (runsTo_trans (runsTo_one haccept) hcapture) (runsTo_one hend)

theorem captStatus_mismatch (r : Vector Byte 4) :
    captStatus (mismatch r) = if r[0] = r[2] then .ok else .okMismatch := by
  simp [captStatus, mismatch]

/-- Settles O25: the sequencer ends CAPT as its loop program does (`capt_runsTo`), whose capture is known in closed form. -/
theorem captCapturesFourPhases : Obligations.CaptCapturesFourPhases := by
  intro s rest h
  obtain ⟨hclk, -, hpcnt, hopr⟩ := h.inv.idle h.idle
  have hend : ruleCapt s = respond (captStatus (mismatch (s.recordAt 0))) (packRecord (s.recordAt 0))
      { captured s with record := s.recordAt 0, mm := mismatch (s.recordAt 0) } := by
    rw [ruleCapt, ruleCapture_eq, assemble_captured]
  refine ⟨_, capt_runsTo h, ?_, ?_⟩
  · simp [hend, atEnd, captured, respond, emit, mismatch, Instr.operand, hclk, hpcnt, hopr, h.idle]
  · simp [hend, trace_eq, atEnd, captured, respond, emit, captStatus_mismatch]

end Sys2Proof.Machine
end

section
/-! PROOFS. WALK as a whole (42_dump_engine.md R114 to R120): the invariant of its loop program over the records, and that
the sequencer runs that program. -/

namespace Sys2Proof.Machine

/-! ## The page of a walk (20_memory.md R46, 42_dump_engine.md R117, R118) -/

/-- A record store is read back byte by byte. -/
theorem read_pageWithRecord_inside {p : Page} (hp : Page.wf p = true) {i : Nat} (hi : i + 3 < 64) (r : Vector Byte 4)
    {b : Nat} (hb : b < 4) : Page.read (pageWithRecord p i r) (i + b) = r[b] := by
  rw [read_pageWithRecord hp hi]
  interval_cases b <;> simp

/-- A record store leaves the bytes outside its four places alone. -/
theorem read_pageWithRecord_outside {p : Page} (hp : Page.wf p = true) {i : Nat} (hi : i + 3 < 64) (r : Vector Byte 4)
    {j : Nat} (hj : j < i ∨ i + 3 < j) : Page.read (pageWithRecord p i r) j = Page.read p j := by
  rw [read_pageWithRecord hp hi, if_neg (by omega), if_neg (by omega), if_neg (by omega), if_neg (by omega)]

/-- The latest sixteen of the first `n` records of a walk that starts in `s`, or all of them when there are fewer, stand
in the page, each at its place: the flush of a page leaves its bytes (90_conflicts.md C5). -/
def HoldsLatest (s : State) (n : Nat) (p : Page) : Prop :=
  ∀ m b, m < n → n ≤ m + 16 → (hb : b < 4) → Page.read p (4 * (m % 16) + b) = (s.walkRecord m)[b]

theorem HoldsLatest.store {s : State} {n : Nat} {p : Page} (h : HoldsLatest s n p) (hp : Page.wf p = true) :
    HoldsLatest s (n + 1) (pageWithRecord p (4 * (n % 16)) (s.walkRecord n)) := by
  intro m b hm hn hb
  have hi : 4 * (n % 16) + 3 < 64 := by omega
  by_cases hmn : m = n
  · subst hmn
    exact read_pageWithRecord_inside hp hi _ hb
  · have hout : 4 * (m % 16) + b < 4 * (n % 16) ∨ 4 * (n % 16) + 3 < 4 * (m % 16) + b := by omega
    rw [read_pageWithRecord_outside hp hi _ hout]
    exact h m b (by omega) (by omega) hb

/-- After `16 (q + 1)` records the page is page `q` of the walk. -/
theorem HoldsLatest.bytes {s : State} {q : Nat} {p : Page} (h : HoldsLatest s (16 * (q + 1)) p) :
    Page.bytes p = s.walkPage q := by
  have hindex : List.range 64 = (List.range 16).flatMap fun k => [4 * k, 4 * k + 1, 4 * k + 2, 4 * k + 3] := by decide
  rw [Page.bytes, Config.pageSize, hindex, List.map_flatMap, State.walkPage]
  refine List.flatMap_congr fun k hk => ?_
  have hk16 : k < 16 := List.mem_range.1 hk
  have hplace : (16 * q + k) % 16 = k := by omega
  have hread (b : Nat) (hb : b < 4) : Page.read p (4 * k + b) = (s.walkRecord (16 * q + k))[b] := by
    simpa only [hplace] using h (16 * q + k) b (by omega) (by omega) hb
  have hrecord : (s.walkRecord (16 * q + k)).toList =
      [(s.walkRecord (16 * q + k))[0], (s.walkRecord (16 * q + k))[1], (s.walkRecord (16 * q + k))[2],
        (s.walkRecord (16 * q + k))[3]] := rfl
  rw [hrecord, ← hread 0, ← hread 1, ← hread 2, ← hread 3]
  rfl

theorem captured_lineTrace (s : State) : (captured s).lineTrace = s.lineTrace ++ phaseEvents 4 := by
  simp [lineTrace_eq, captured]

theorem captured_outTrace (s : State) : (captured s).outTrace = s.outTrace := by
  simp [outTrace_eq, captured]

/-- The count of a record drives no line. -/
theorem countRecord_lineTrace (s : State) : (countRecord s).lineTrace = s.lineTrace := by
  simp only [lineTrace_eq, countRecord_eq]
  split <;> split <;> simp

/-- The count of a record gives out its `Diag`, then the full page (42_dump_engine.md R118, R120). -/
theorem countRecord_outTrace (s : State) :
    (countRecord s).outTrace = s.outTrace ++ ((if s.mm then [OutEvent.diag s.wAddr] else []) ++
      if (s.pIdx + 4#7).toNat = 64 then [OutEvent.pageOut (Page.bytes s.page)] else []) := by
  simp only [outTrace_eq, countRecord_eq]
  split <;> split <;> simp

/-! ## One turn of the walk as a loop program (42_dump_engine.md R114) -/

/-- The state after a capture from `s` whose record is assembled and stored in the page. -/
def stored (s : State) : State :=
  { captured s with
    record := s.recordAt 0, mm := mismatch (s.recordAt 0)
    page := pageWithRecord s.page s.pIdx.toNat (s.recordAt 0) }

theorem storeBytes_captured {s : State} (h : s.pIdx.toNat + 3 < 64) :
    storeBytes (assemble (captured s)) = some (stored s) := by
  rw [assemble_captured]
  exact storeBytes_eq h

/-- The state after one turn of the walk from `s`. -/
def recorded (s : State) : State := countRecord (stored s)

theorem ruleRecord_eq {s : State} (h : s.pIdx.toNat + 3 < 64) : ruleRecord s = some (recorded s) := by
  rw [ruleRecord, ruleCapture_eq, storeBytes_captured h]
  rfl

theorem walkCsum_succ (s : State) (n : Nat) :
    s.walkCsum (n + 1) = csumNext (BitVec.ofNat 13 n) (s.walkRecord n)[3] (s.walkCsum n) := by
  simp [State.walkCsum, List.range_succ]

/-- Where the loop program of a walk that starts in `s` stands after `n` records. -/
structure Walked (s : State) (n : Nat) (r : State) : Prop where
  clk : r.clk = true
  rstN : r.rstN = s.rstN
  pcnt : r.pcnt = 0#12
  cyc : r.cyc = s.cyc
  csum : r.csum = s.walkCsum n
  wAddr : r.wAddr = BitVec.ofNat 13 n
  pIdx : r.pIdx = BitVec.ofNat 7 (4 * (n % 16))
  cfg : r.cfg = s.cfg
  answers : r.answers = s.answers.drop (4 * n)
  draws : r.draws = s.draws + 4 * n
  resetMark : r.resetMark = s.resetMark
  resetReq : r.resetReq = s.resetReq
  pageWf : Page.wf r.page = true
  page : HoldsLatest s n r.page
  lines : r.lineTrace = s.lineTrace ++ phaseEvents (4 * n)
  outs : r.outTrace = s.outTrace ++ (List.range n).flatMap s.walkEvents

theorem walked_seedWalk {s : State} (h : Inv s) (hi : s.st = .idle) : Walked s 0 (seedWalk s) := by
  obtain ⟨hclk, -, hpcnt, -⟩ := h.idle hi
  exact
    { clk := hclk, rstN := rfl, pcnt := hpcnt, cyc := rfl, csum := rfl, wAddr := rfl, pIdx := rfl, cfg := rfl
      answers := rfl, draws := rfl, resetMark := rfl, resetReq := rfl, pageWf := h.page
      page := fun _ _ h => absurd h (Nat.not_lt_zero _), lines := (List.append_nil _).symm
      outs := (List.append_nil _).symm }

theorem Walked.sampleAt {s r : State} {n : Nat} (h : Walked s n r) (j : Nat) : r.sampleAt j = s.sampleAt (4 * n + j) :=
  sampleAt_of_drop h.cfg h.answers h.draws j

theorem Walked.recordAt {s r : State} {n : Nat} (h : Walked s n r) : r.recordAt 0 = s.walkRecord n :=
  recordAt_of_drop h.cfg h.answers h.draws 0

theorem Walked.pIdx_toNat {s r : State} {n : Nat} (h : Walked s n r) : r.pIdx.toNat = 4 * (n % 16) := by
  rw [h.pIdx, BitVec.toNat_ofNat]
  omega

/-- The next record has its place in the page. -/
theorem Walked.room {s r : State} {n : Nat} (h : Walked s n r) : r.pIdx.toNat + 3 < 64 := by
  rw [h.pIdx_toNat]
  omega

/-- The page is full after every sixteenth record. -/
theorem Walked.full_iff {s r : State} {n : Nat} (h : Walked s n r) : (r.pIdx + 4#7).toNat = 64 ↔ n % 16 = 15 := by
  rw [BitVec.toNat_add, h.pIdx_toNat]
  simp only [BitVec.toNat_ofNat]
  omega

/-- The page index after the record of walk index `n`: the next place, or 0 after a full page. -/
theorem Walked.pIdx_next {s r : State} {n : Nat} (h : Walked s n r) :
    (if (r.pIdx + 4#7).toNat = 64 then 0#7 else r.pIdx + 4#7) = BitVec.ofNat 7 (4 * ((n + 1) % 16)) := by
  simp only [h.full_iff]
  split
  · next hfull => rw [show (n + 1) % 16 = 0 by omega]
  · next hroom => rw [show (n + 1) % 16 = n % 16 + 1 by omega, Nat.mul_add, BitVec.ofNat_add, h.pIdx]

/-- The page event of the record of walk index `n`: after every sixteenth record the page holds its sixteen records. -/
theorem HoldsLatest.pageOut {s : State} {n : Nat} {p : Page} (h : HoldsLatest s (n + 1) p) :
    (if n % 16 = 15 then [OutEvent.pageOut (Page.bytes p)] else []) =
      if n % 16 = 15 then [.pageOut (s.walkPage (n / 16))] else [] := by
  split
  · next hfull =>
    rw [show n + 1 = 16 * (n / 16 + 1) by omega] at h
    rw [h.bytes]
  · rfl

/-- The store of the next record keeps the page in canonical form and puts the record at its place. -/
theorem Walked.stored_page {s r : State} {n : Nat} (h : Walked s n r) :
    Page.wf (stored r).page = true ∧ HoldsLatest s (n + 1) (stored r).page := by
  have hpage : (stored r).page = pageWithRecord r.page (4 * (n % 16)) (s.walkRecord n) := by
    rw [← h.recordAt, ← h.pIdx_toNat]
    rfl
  rw [hpage]
  exact ⟨pageWithRecord_wf h.pageWf (by omega) _, h.page.store h.pageWf⟩

/-- The turn of record `n` gives out that record's events. -/
theorem Walked.recorded_outTrace {s r : State} {n : Nat} (h : Walked s n r) :
    (recorded r).outTrace = r.outTrace ++ s.walkEvents n := by
  have hmm : (stored r).mm = mismatch (s.walkRecord n) := congrArg mismatch h.recordAt
  have hpIdx : (stored r).pIdx = r.pIdx := rfl
  have hwAddr : (stored r).wAddr = BitVec.ofNat 13 n := h.wAddr
  have hout : (stored r).outTrace = r.outTrace := captured_outTrace r
  rw [recorded, countRecord_outTrace, hout, hmm, hwAddr, hpIdx]
  simp only [h.full_iff]
  rw [h.stored_page.2.pageOut, State.walkEvents]

/-- One turn of the walk keeps its invariant. -/
theorem Walked.recorded {s r : State} {n : Nat} (h : Walked s n r) : Walked s (n + 1) (recorded r) := by
  obtain ⟨hwf, hholds⟩ := h.stored_page
  have hregs := countRecord_eq (stored r)
  constructor
  case lines =>
    refine (countRecord_lineTrace _).trans ((captured_lineTrace r).trans ?_)
    rw [h.lines, List.append_assoc, ← phaseEvents_add, Nat.mul_add]
  case outs => rw [h.recorded_outTrace, h.outs, List.range_succ, List.flatMap_append, List.append_assoc,
    List.flatMap_singleton]
  all_goals rw [Machine.recorded, hregs]
  case csum =>
    show csumNext r.wAddr (r.recordAt 0)[3] r.csum = _
    rw [h.wAddr, h.recordAt, h.csum, walkCsum_succ]
  case wAddr => exact (congrArg wAddrNext h.wAddr).trans (BitVec.ofNat_add n 1).symm
  case pIdx => exact h.pIdx_next
  case answers => simp [stored, captured, h.answers, Nat.mul_add]
  case draws => exact (congrArg (· + 4) h.draws).trans (by omega)
  case clk => rfl
  case pcnt => rfl
  case rstN => exact h.rstN
  case cyc => exact h.cyc
  case cfg => exact h.cfg
  case resetMark => exact h.resetMark
  case resetReq => exact h.resetReq
  case pageWf => exact hwf
  case page => exact hholds

/-- What the capture of record `m` of a walk that starts in `s` leaves in the registers it writes. -/
structure LastCapture (s : State) (m : Nat) (r : State) : Prop where
  ph : r.ph = 3#2
  sample : r.sample = s.sampleAt (4 * m + 3)
  hist : r.hist = #v[s.sampleAt (4 * m), s.sampleAt (4 * m + 1), s.sampleAt (4 * m + 2), s.sampleAt (4 * m + 3)]
  record : r.record = s.walkRecord m
  mm : r.mm = mismatch (s.walkRecord m)

theorem Walked.lastCapture {s r : State} {n : Nat} (h : Walked s n r) : LastCapture s n (Machine.recorded r) := by
  rw [Machine.recorded, countRecord_eq]
  exact
    { ph := rfl, sample := h.sampleAt 3, record := h.recordAt, mm := congrArg mismatch h.recordAt
      hist := congrArg Vector.ofFn (funext fun i : Fin 4 => h.sampleAt i) }

/-! ## The walk in the sequencer (43_sequencer_fsm.md R135, R136) -/

theorem Walked.wAddr_toNat {s r : State} {n : Nat} (h : Walked s n r) (hn : n ≤ 4096) : r.wAddr.toNat = n := by
  rw [h.wAddr, BitVec.toNat_ofNat]
  omega

theorem walkNext_setsSt (s : State) (x : SeqState) : walkNext { s with st := x } = walkNext s := by
  unfold walkNext
  split <;> rfl

/-- The count of a record does not look at the latches or at `ST`. -/
theorem countRecord_inProgress (i : Instr) (rest : List Word) (s : State) (x : SeqState) :
    countRecord { inProgress i rest s with st := x } = { inProgress i rest (countRecord s) with st := x } := by
  rw [countRecord_eq, countRecord_eq]
  rfl

/-- Below address 4096 the next capture follows. -/
theorem walkNext_capture {s : State} (h : s.wAddr.toNat ≠ 4096) : walkNext s = { s with ph := 0#2, st := .smp } :=
  if_neg h

/-- At address 4096 the walk is over. -/
theorem walkNext_finish {s : State} (h : s.wAddr.toNat = 4096) (rest : List Word) :
    walkNext (inProgress .walk rest s) = atEnd .walk rest (respond .ok (packCsum s.csum) s) :=
  if_pos h

/-- The capture, assembly and store of one record take fourteen steps. -/
theorem record_runsTo {s : State} (rest : List Word) (hr : s.resetReq = false) (hroom : s.pIdx.toNat + 3 < 64)
    (hmore : s.wAddr.toNat ≠ 4096) :
    runsTo 14 (walkNext (inProgress .walk rest s)) (walkNext (inProgress .walk rest (recorded s))) := by
  have hrun : Running .walk (captured (inProgress .walk rest s)) := ⟨hr, rfl⟩
  have hrun' : Running .walk (assemble (captured (inProgress .walk rest s))) := ⟨hr, rfl⟩
  have hcapture := capture_runsTo walk_captures (s := inProgress .walk rest s) ⟨hr, rfl⟩
  have hassemble : step { captured (inProgress .walk rest s) with st := .asm } =
      .next { assemble (captured (inProgress .walk rest s)) with st := .store } :=
    hrun.step .asm (nomatch ·)
  have hbytes : storeBytes { assemble (captured (inProgress .walk rest s)) with st := .store } =
      some { inProgress .walk rest (stored s) with st := .store } := by
    rw [assemble_captured]
    exact storeBytes_eq hroom
  have hstore : step { assemble (captured (inProgress .walk rest s)) with st := .store } =
      .next (walkNext (inProgress .walk rest (recorded s))) := by
    rw [hrun'.step .store (nomatch ·)]
    show walkStore _ = _
    simp only [walkStore, hbytes, countRecord_inProgress, walkNext_setsSt]
    rfl
  rw [walkNext_capture (s := inProgress .walk rest s) hmore]
  exact runsTo_trans (runsTo_trans hcapture (runsTo_one hassemble)) (runsTo_one hstore)

/-- The invariant of the walk after `k` turns from its start. -/
theorem walked_iterate {s : State} (h : Inv s) (hi : s.st = .idle) (k : Nat) : Walked s k (recorded^[k] (seedWalk s)) := by
  induction k with
  | zero => exact walked_seedWalk h hi
  | succ k ih =>
    rw [Function.iterate_succ_apply']
    exact ih.recorded

/-- `k` turns of the walk take `14 k` steps. -/
theorem records_runsTo {s : State} {rest : List Word} (h : Ready .walk rest s) {k : Nat} (hk : k ≤ 4096) :
    runsTo (14 * k) (walkNext (inProgress .walk rest (seedWalk s)))
      (walkNext (inProgress .walk rest (recorded^[k] (seedWalk s)))) := by
  induction k with
  | zero => rfl
  | succ k ih =>
    have hw := walked_iterate h.inv h.idle k
    have hmore : (recorded^[k] (seedWalk s)).wAddr.toNat ≠ 4096 := by
      rw [hw.wAddr_toNat (by omega)]
      omega
    rw [Function.iterate_succ_apply']
    exact runsTo_trans (ih (by omega)) (record_runsTo rest (hw.resetReq.trans h.noReset) hw.room hmore)

/-! ## WALK (42_dump_engine.md R114) -/

/-- `k` turns of the loop program are `k` times `recorded`. -/
theorem ruleWalkLoop_eq {s r : State} {n : Nat} (h : Walked s n r) (k : Nat) :
    ruleWalkLoop k r = some (recorded^[k] r) := by
  induction k generalizing n r with
  | zero => rfl
  | succ k ih =>
    rw [ruleWalkLoop, ruleRecord_eq h.room]
    exact ih h.recorded

/-- WALK takes its acceptance and fourteen steps for each of 4096 records, to the end of its loop program: `r` is where
the loop of that program ends, and the invariant says what it has done. -/
theorem walk_runsTo {s : State} {rest : List Word} (h : Ready .walk rest s) :
    ∃ r, ruleWalkLoop 4096 (seedWalk s) = some r ∧ Walked s 4096 r ∧ LastCapture s 4095 r ∧
      runsTo 57345 s (atEnd .walk rest (respond .ok (packCsum r.csum) r)) := by
  have hw := walked_iterate h.inv h.idle 4096
  have haccept : step s = .next (walkNext (inProgress .walk rest (seedWalk s))) := by
    rw [step_ready h, walkNext_capture (by simp [inProgress, seedWalk])]
    simp [exec, execWalk, h.idle, latch, inProgress, seedWalk]
  have hrecords := records_runsTo h (le_refl 4096)
  rw [walkNext_finish (hw.wAddr_toNat (le_refl 4096))] at hrecords
  refine ⟨_, ruleWalkLoop_eq (walked_seedWalk h.inv h.idle) 4096, hw, ?_,
    runsTo_trans (runsTo_one haccept) hrecords⟩
  rw [Function.iterate_succ_apply' recorded 4095]
  exact (walked_iterate h.inv h.idle 4095).lastCapture

/-- Settles O26: the sequencer ends WALK as its loop program does (`walk_runsTo`), and the invariant `Walked` says what
that program has done after 4096 records. -/
theorem walkCapturesEveryAddress : Obligations.WalkCapturesEveryAddress := by
  intro s rest h
  obtain ⟨hclk, -, hpcnt, hopr⟩ := h.inv.idle h.idle
  obtain ⟨r, -, hw, hlast, hrun⟩ := walk_runsTo h
  refine ⟨_, hrun, ?_, hw.page.bytes (q := 255), ?_, ?_⟩
  · simp [atEnd, respond, emit, Instr.operand, hclk, hpcnt, hopr, h.idle, hlast.ph, hlast.sample, hlast.hist,
      hlast.record, hlast.mm, hw.clk, hw.pcnt, hw.rstN, hw.cyc, hw.csum, hw.wAddr, hw.pIdx, hw.cfg, hw.answers,
      hw.draws, hw.resetMark, hw.resetReq]
  · exact (respond_lineTrace _ _ r).trans hw.lines
  · rw [← hw.outs, ← hw.csum]
    exact respond_outTrace _ _ r

end Sys2Proof.Machine
end

section
/-! PROOFS. The decoder accepts legal words only (30_encoding.md R62, R64), so that an illegal word presented in `IDLE` is
answered. -/

namespace Sys2Proof.Machine

/-- The decoder's answer for an opcode without operand: that operation, whose operand field is 0, or none. -/
theorem fields_of_noOperand {i j : Instr} {a : Arg} (hi : i.operand = 0#12) (h : noOperand i a = .ok j) :
    j.opcode = i.opcode ∧ j.operand = a := by
  unfold noOperand at h
  split at h
  · next ha =>
    cases h
    exact ⟨rfl, hi.trans ha.symm⟩
  · cases h

/-- A decoded operation has the opcode and the operand of its word. -/
theorem fields_of_decode {w : Word} {i : Instr} (h : decode w = .ok i) :
    i.opcode = opcField w ∧ i.operand = argField w := by
  unfold decode at h
  split_ifs at h with hclkp hsamp htrst hseek hcapt hwalk
  · cases h
    exact ⟨hclkp.symm, rfl⟩
  · exact hsamp ▸ fields_of_noOperand rfl h
  · exact htrst ▸ fields_of_noOperand rfl h
  · cases h
    exact ⟨hseek.symm, rfl⟩
  · exact hcapt ▸ fields_of_noOperand rfl h
  · exact hwalk ▸ fields_of_noOperand rfl h

/-- A word is its opcode field and its operand field (30_encoding.md R60). -/
theorem append_fields (w : Word) : (opcField w ++ argField w : Word) = w :=
  BitVec.extractLsb'_append_extractLsb' (len := 12) (w := 4)

theorem encode_of_decode {w : Word} {i : Instr} (h : decode w = .ok i) : encode i = w := by
  obtain ⟨hopc, harg⟩ := fields_of_decode h
  rw [encode, hopc, harg, append_fields]

/-- The mask of an operation with an operand keeps the opcode of its word and drops the operand. -/
theorem append_and_opcMask (o : BitVec 4) (a : Arg) : (o ++ a : Word) &&& 0xF000#16 = o ++ 0#12 := by
  have hmask : 0xF000#16 = (0xF#4 ++ 0#12 : Word) := rfl
  have hall : o &&& 0xF#4 = o := BitVec.and_allOnes
  rw [hmask, BitVec.and_append, hall, BitVec.and_zero]

/-- The word of an operation matches a row of the table. -/
theorem legalWord_encode (i : Instr) : legalWord (encode i) = true := by
  cases i with
  | clkp n =>
    have h : (encode (.clkp n)) &&& 0xF000#16 = 0x1000#16 := append_and_opcMask 1#4 n
    simp [legalWord, opcodeTable, OpRow.selects, h]
  | seek a =>
    have h : (encode (.seek a)) &&& 0xF000#16 = 0x4000#16 := append_and_opcMask 4#4 a
    simp [legalWord, opcodeTable, OpRow.selects, h]
  | samp => decide
  | trst => decide
  | capt => decide
  | walk => decide

theorem decode_of_illegal {w : Word} (h : legalWord w = false) : ∃ e, decode w = .error e := by
  cases hd : decode w with
  | error e => exact ⟨e, rfl⟩
  | ok i =>
    have hlegal := legalWord_encode i
    rw [encode_of_decode hd, h] at hlegal
    cases hlegal

/-- In `IDLE` a step answers an illegal word (60_exceptions.md R151). -/
theorem step_answers_illegal {s : State} {w : Word} {rest : List Word} (hr : s.resetReq = false)
    (hi : s.st = .idle) (ho : s.ops = w :: rest) (hw : legalWord w = false) :
    step s = .next (illegalOp w { s with ops := rest }) := by
  obtain ⟨e, he⟩ := decode_of_illegal hw
  simp [step, stepIdle, fetch_eq, hr, hi, ho, he]

end Sys2Proof.Machine
end

section
/-! PROOFS. The transitions of the sequencer, state by state of `ST` (43_sequencer_fsm.md R132, R134 to R136). -/

namespace Sys2Proof.Machine

/-! ## From `IDLE` (43_sequencer_fsm.md R132) -/

theorem exec_samp_idle {s : State} (h : s.st = .idle) : exec .samp s = .next { latch .samp s with st := .smp } := by
  simp [exec, execSamp, h]

theorem exec_trst_idle {s : State} (h : s.st = .idle) :
    exec .trst s = .next (startPulses s.cfg.resetPulses trstDone (driveRst false (latch .trst s))) := by
  simp [exec, execTrst, h]

theorem exec_seek_idle {s : State} (h : s.st = .idle) (a : Arg) :
    exec (.seek a) s = .next { latch (.seek a) s with cyc := 0#32, st := .smp } := by
  simp [exec, execSeek, h]

theorem exec_capt_idle {s : State} (h : s.st = .idle) :
    exec .capt s = .next { latch .capt s with ph := 0#2, st := .smp } := by
  simp [exec, execCapt, h]

theorem exec_walk_idle {s : State} (h : s.st = .idle) :
    exec .walk s = .next { seedWalk (latch .walk s) with ph := 0#2, st := .smp } := by
  simp [exec, execWalk, h]

/-- A burst, told apart by its count: none at all, or the first `Fall`. -/
theorem startPulses_eq (k : Arg) (after : State → State) (s : State) :
    startPulses k after s = if k = 0#12 then after { s with pcnt := 0#12 } else beginPulse { s with pcnt := k } := by
  rcases startPulses_cases k after s with ⟨hk, hs⟩ | ⟨hk, hs⟩
  · rw [hs, if_pos hk]
  · rw [hs, if_neg hk]

/-- Settles O10: the acceptance of each operation, where a burst of no pulses ends at once, and the two answers to a
word presented in `IDLE`. -/
theorem acceptanceTransitions : Obligations.AcceptanceTransitions := by
  intro s h
  refine ⟨fun n => ?clkp, exec_samp_idle h, ?trst, exec_seek_idle h, exec_capt_idle h, exec_walk_idle h,
    fun w rest hr ho => ⟨fun i => step_accepts hr h ho, step_answers_illegal hr h ho⟩⟩
  case clkp =>
    rw [exec_clkp_idle h, startPulses_eq]
    rfl
  case trst =>
    rw [exec_trst_idle h, startPulses_eq]
    rfl

/-! ## From `SMP` (43_sequencer_fsm.md R134) -/

theorem exec_samp_smp {s : State} (h : s.st = .smp) :
    exec .samp s = .next (finish .ok (packSample (takeSample s).sample) (takeSample s)) := by
  simp [exec, execSamp, h]

theorem exec_seek_smp {s : State} (h : s.st = .smp) (a : Arg) : exec (.seek a) s = .next (seekSample s) := by
  simp [exec, execSeek, h]

/-- The strobe matcher: SEEK is over on a match, else a burst of one pulse starts (41_cycle_search.md R101). -/
theorem seekSample_eq (s : State) :
    seekSample s =
      if qual (takeSample s).sample s.arg = true then finish .ok s.cyc (takeSample s)
      else startPulses 1#12 seekNext (takeSample s) := rfl

theorem captures_of {i : Instr} (h : i = .capt ∨ i = .walk) : Captures i := by
  rcases h with rfl | rfl
  · exact capt_captures
  · exact walk_captures

/-- Settles O12: the transition of each operation that samples, SEEK's by the answer of its matcher. -/
theorem sampleTransitions : Obligations.SampleTransitions := by
  intro s h
  refine ⟨exec_samp_smp h, fun a hmatch => ?seekMatch, fun a hmatch => ?seekNoMatch, fun i hi => ?capture⟩
  case seekMatch =>
    rw [exec_seek_smp h, seekSample_eq, takeSample_sample, if_pos hmatch]
    rfl
  case seekNoMatch =>
    rw [exec_seek_smp h, seekSample_eq, takeSample_sample, if_neg (ne_true_of_eq_false hmatch),
      startPulses_pos (by decide)]
    rfl
  case capture =>
    rw [(captures_of hi).sample s h, phaseSample_eq]
    rfl

/-! ## From `ASM` (43_sequencer_fsm.md R135) -/

theorem exec_capt_asm {s : State} (h : s.st = .asm) : exec .capt s = .next (captAssemble s) := by
  simp [exec, execCapt, h]

theorem exec_walk_asm {s : State} (h : s.st = .asm) : exec .walk s = .next { assemble s with st := .store } := by
  simp [exec, execWalk, h]

/-- Settles O13: both operations assemble the record (`assemble_eq`), then CAPT responds with it and WALK goes on. -/
theorem assembleTransitions : Obligations.AssembleTransitions := by
  intro s h
  constructor
  · rw [exec_capt_asm h, captAssemble, assemble_eq]
    rfl
  · rw [exec_walk_asm h, assemble_eq]
    rfl

/-! ## From `STORE` (43_sequencer_fsm.md R136) -/

theorem exec_walk_store {s : State} (h : s.st = .store) : exec .walk s = walkStore s := by
  simp [exec, execWalk, h]

theorem walkStore_eq {s : State} (h : s.pIdx.toNat + 3 < 64) :
    walkStore s =
      .next (walkNext (countRecord { s with page := pageWithRecord s.page s.pIdx.toNat s.record })) := by
  rw [walkStore, storeBytes_eq h]

/-- The checksum takes in the data bytes from address 128 on (42_dump_engine.md R116). -/
theorem csumNext_eq (i : BitVec 13) (d c : Byte) : csumNext i d c = if 128 ≤ i.toNat then c + d else c := by
  have hlt : i.toNat < 128 ↔ ¬ 128 ≤ i.toNat := Nat.not_le.symm
  simp only [csumNext, reserved, Config.reservedSize, decide_eq_true_eq, hlt, ite_not]

/-- The registers a finished or continued walk leaves, told apart by its address. -/
theorem walkNext_eq (s : State) :
    walkNext s =
      { s with
        ph := if s.wAddr.toNat = 4096 then s.ph else 0#2
        opr := if s.wAddr.toNat = 4096 then 0#3 else s.opr
        st := if s.wAddr.toNat = 4096 then .idle else .smp
        log := (if s.wAddr.toNat = 4096 then [Event.out (.rsp .ok (packCsum s.csum))] else []) ++ s.log } := by
  unfold walkNext Config.memSize
  split <;> rfl

/-- Settles O14: the four stores stay in the page, then `countRecord_eq` and `walkNext_eq` say what the count of the
record and the end of the transition write. -/
theorem storeTransition : Obligations.StoreTransition := by
  intro s h hpIdx _
  have hroom : s.pIdx.toNat + 3 < 64 := by omega
  intro i page csum full last
  have hcsum : csumNext s.wAddr s.record[3] s.csum = csum := csumNext_eq _ _ _
  rw [exec_walk_store h, walkStore_eq hroom, countRecord_eq, walkNext_eq]
  simp only [hcsum]
  rfl

end Sys2Proof.Machine
end

section
/-! PROOFS. The pulse engine (43_sequencer_fsm.md R131, R133): the halves of a pulse and the end of a burst, and that
`PLO` is entered with pulses to issue and `IDLE` with none left. -/

namespace Sys2Proof.Machine

/-! ## The end of a burst (43_sequencer_fsm.md R131) -/

/-- The `AfterPulses` of each operation that pulses (43_sequencer_fsm.md R131); SAMP has none. -/
inductive AfterPulses : Instr → (State → State) → Prop
  | clkp (n : Arg) : AfterPulses (.clkp n) clkpDone
  | trst : AfterPulses .trst trstDone
  | seek (a : Arg) : AfterPulses (.seek a) seekNext
  | capt : AfterPulses .capt afterPhase
  | walk : AfterPulses .walk afterPhase

theorem exists_afterPulses {i : Instr} (h : i ≠ .samp) : ∃ after, AfterPulses i after := by
  cases i with
  | samp => exact absurd rfl h
  | clkp n => exact ⟨_, .clkp n⟩
  | trst => exact ⟨_, .trst⟩
  | seek a => exact ⟨_, .seek a⟩
  | capt => exact ⟨_, .capt⟩
  | walk => exact ⟨_, .walk⟩

theorem trst_pulsesThen : PulsesThen .trst trstDone where
  low s h := by simp [exec, execTrst, h]
  high s h := by simp [exec, execTrst, h]
  setsSt _ _ := rfl

theorem seek_pulsesThen (a : Arg) : PulsesThen (.seek a) seekNext where
  low s h := by simp [exec, execSeek, h]
  high s h := by simp [exec, execSeek, h]
  setsSt _ _ := rfl

/-- `exec` ends the bursts of each operation in its `AfterPulses`. -/
theorem AfterPulses.pulsesThen {i : Instr} {after : State → State} (h : AfterPulses i after) : PulsesThen i after := by
  cases h with
  | clkp n => exact clkp_pulsesThen n
  | trst => exact trst_pulsesThen
  | seek a => exact seek_pulsesThen a
  | capt => exact capt_captures.pulses
  | walk => exact walk_captures.pulses

theorem afterPhase_st (s : State) : (afterPhase s).st = if s.ph = 3#2 then .asm else .smp := by
  unfold afterPhase
  split <;> rfl

theorem afterPhase_pcnt (s : State) : (afterPhase s).pcnt = s.pcnt := by
  unfold afterPhase
  split <;> rfl

/-- No burst ends in the low half of a pulse. -/
theorem AfterPulses.st_ne_plo {i : Instr} {after : State → State} (h : AfterPulses i after) (s : State) :
    (after s).st ≠ .plo := by
  have hphase : (afterPhase s).st ≠ .plo := by
    rw [afterPhase_st]
    split <;> simp
  cases h with
  | clkp n => exact nofun
  | trst => exact nofun
  | seek a => exact nofun
  | capt => exact hphase
  | walk => exact hphase

/-- The end of a burst leaves `PCNT` alone. -/
theorem AfterPulses.pcnt {i : Instr} {after : State → State} (h : AfterPulses i after) (s : State) :
    (after s).pcnt = s.pcnt := by
  cases h with
  | clkp n => rfl
  | trst => rfl
  | seek a => rfl
  | capt => exact afterPhase_pcnt s
  | walk => exact afterPhase_pcnt s

/-! ## What a transition does to `PCNT` (10_state.md R17) -/

/-- Where an operation answers a next state, it is on its path (43_sequencer_fsm.md R137). -/
theorem onPath_of_exec {i : Instr} {s t : State} (h : exec i s = .next t) : onPath i s.st = true := by
  cases i with
  | clkp n => cases hst : s.st <;> simp [exec, execClkp, onPath, hst] at h ⊢
  | samp => cases hst : s.st <;> simp [exec, execSamp, onPath, hst] at h ⊢
  | trst => cases hst : s.st <;> simp [exec, execTrst, onPath, hst] at h ⊢
  | seek a => cases hst : s.st <;> simp [exec, execSeek, onPath, hst] at h ⊢
  | capt => cases hst : s.st <;> simp [exec, execCapt, onPath, hst] at h ⊢
  | walk => rfl

/-- What a transition of operation `i` from `s` to `t` can do to the count of a burst: start a burst or what is left of
one, end the low half of a pulse, or, between bursts, leave the count alone. -/
inductive PcntMove (i : Instr) (s : State) : State → Prop
  | burst {after : State → State} (h : AfterPulses i after) (k : Arg) (r : State) :
    PcntMove i s (startPulses k after r)
  | lowHalf (h : s.st = .plo) : PcntMove i s (lowHalf s)
  | kept {t : State} (hlow : s.st ≠ .plo) (hhigh : s.st ≠ .phi) (hst : t.st ≠ .plo) (hpcnt : t.pcnt = s.pcnt) :
    PcntMove i s t

theorem walkNext_st_ne_plo (s : State) : (walkNext s).st ≠ .plo := by
  rw [walkNext_eq]
  dsimp only
  split <;> simp

/-- The store of a record leaves `PCNT` alone and begins no pulse. -/
theorem walkStore_next {s t : State} (h : walkStore s = .next t) : t.st ≠ .plo ∧ t.pcnt = s.pcnt := by
  unfold walkStore at h
  split at h
  · next s1 hs =>
    cases h
    obtain ⟨-, rfl⟩ := (storeBytes_some_iff s s1).1 hs
    refine ⟨walkNext_st_ne_plo _, ?_⟩
    rw [walkNext_eq, countRecord_eq]
  · cases h

theorem pcntMove_of_exec_idle {i : Instr} {s t : State} (hst : s.st = .idle) (h : exec i s = .next t) :
    PcntMove i s t := by
  have hlow : s.st ≠ .plo := by simp [hst]
  have hhigh : s.st ≠ .phi := by simp [hst]
  cases i with
  | clkp n =>
    cases (exec_clkp_idle hst n).symm.trans h
    exact .burst (.clkp n) _ _
  | trst =>
    cases (exec_trst_idle hst).symm.trans h
    exact .burst .trst _ _
  | samp =>
    cases (exec_samp_idle hst).symm.trans h
    exact .kept hlow hhigh nofun rfl
  | seek a =>
    cases (exec_seek_idle hst a).symm.trans h
    exact .kept hlow hhigh nofun rfl
  | capt =>
    cases (exec_capt_idle hst).symm.trans h
    exact .kept hlow hhigh nofun rfl
  | walk =>
    cases (exec_walk_idle hst).symm.trans h
    exact .kept hlow hhigh nofun rfl

theorem pcntMove_of_exec_smp {i : Instr} {s t : State} (hst : s.st = .smp) (h : exec i s = .next t) :
    PcntMove i s t := by
  have hlow : s.st ≠ .plo := by simp [hst]
  have hhigh : s.st ≠ .phi := by simp [hst]
  have hpath := onPath_of_exec h
  rw [hst] at hpath
  cases i with
  | clkp n => cases hpath
  | trst => cases hpath
  | samp =>
    cases (exec_samp_smp hst).symm.trans h
    exact .kept hlow hhigh nofun rfl
  | seek a =>
    cases (exec_seek_smp hst a).symm.trans h
    rw [seekSample_eq]
    split
    · exact .kept hlow hhigh nofun rfl
    · exact .burst (.seek a) _ _
  | capt =>
    cases (capt_captures.sample s hst).symm.trans h
    exact .burst .capt _ _
  | walk =>
    cases (walk_captures.sample s hst).symm.trans h
    exact .burst .walk _ _

theorem pcntMove_of_exec_asm {i : Instr} {s t : State} (hst : s.st = .asm) (h : exec i s = .next t) :
    PcntMove i s t := by
  have hlow : s.st ≠ .plo := by simp [hst]
  have hhigh : s.st ≠ .phi := by simp [hst]
  have hpath := onPath_of_exec h
  rw [hst] at hpath
  cases i with
  | clkp n => cases hpath
  | samp => cases hpath
  | trst => cases hpath
  | seek a => cases hpath
  | capt =>
    cases (exec_capt_asm hst).symm.trans h
    exact .kept hlow hhigh nofun rfl
  | walk =>
    cases (exec_walk_asm hst).symm.trans h
    exact .kept hlow hhigh nofun rfl

theorem pcntMove_of_exec_store {i : Instr} {s t : State} (hst : s.st = .store) (h : exec i s = .next t) :
    PcntMove i s t := by
  have hpath := onPath_of_exec h
  rw [hst] at hpath
  cases i with
  | clkp n => cases hpath
  | samp => cases hpath
  | trst => cases hpath
  | seek a => cases hpath
  | capt => cases hpath
  | walk =>
    obtain ⟨hplo, hpcnt⟩ := walkStore_next ((exec_walk_store hst).symm.trans h)
    exact .kept (by simp [hst]) (by simp [hst]) hplo hpcnt

/-- In the halves of a pulse only an operation that pulses has a transition. -/
theorem ne_samp_of_exec {i : Instr} {s t : State} (hst : s.st = .plo ∨ s.st = .phi) (h : exec i s = .next t) :
    i ≠ .samp := by
  rintro rfl
  have hpath := onPath_of_exec h
  rcases hst with hst | hst <;> simp [hst, onPath] at hpath

/-- Every transition moves the count so, state by state of `ST`. -/
theorem pcntMove_of_exec {i : Instr} {s t : State} (h : exec i s = .next t) : PcntMove i s t := by
  cases hst : s.st with
  | idle => exact pcntMove_of_exec_idle hst h
  | smp => exact pcntMove_of_exec_smp hst h
  | asm => exact pcntMove_of_exec_asm hst h
  | store => exact pcntMove_of_exec_store hst h
  | plo =>
    obtain ⟨after, ha⟩ := exists_afterPulses (ne_samp_of_exec (.inl hst) h)
    cases (ha.pulsesThen.low s hst).symm.trans h
    exact .lowHalf hst
  | phi =>
    obtain ⟨after, ha⟩ := exists_afterPulses (ne_samp_of_exec (.inr hst) h)
    cases (ha.pulsesThen.high s hst).symm.trans h
    exact .burst ha (pcntNext s.pcnt) _

/-- A transition into `PLO` leaves pulses to issue. -/
theorem PcntMove.pcnt_plo {i : Instr} {s t : State} (h : PcntMove i s t) (hplo : t.st = .plo) : t.pcnt ≠ 0#12 := by
  cases h with
  | lowHalf hs => cases hplo
  | kept hlow hhigh hst hpcnt => exact absurd hplo hst
  | burst ha k r =>
    rcases startPulses_cases k _ r with ⟨-, hend⟩ | ⟨hk, hbegin⟩
    · rw [hend] at hplo
      exact absurd hplo (ha.st_ne_plo _)
    · rw [hbegin]
      exact hk

/-- A transition into `IDLE` leaves no pulses, when there are none between bursts. -/
theorem PcntMove.pcnt_idle {i : Instr} {s t : State} (h : PcntMove i s t)
    (hs : s.st ≠ .plo → s.st ≠ .phi → s.pcnt = 0#12) (hidle : t.st = .idle) : t.pcnt = 0#12 := by
  cases h with
  | lowHalf hlow => cases hidle
  | kept hlow hhigh hst hpcnt => exact hpcnt.trans (hs hlow hhigh)
  | burst ha k r =>
    rcases startPulses_cases k _ r with ⟨-, hend⟩ | ⟨-, hbegin⟩
    · rw [hend]
      exact ha.pcnt _
    · rw [hbegin] at hidle
      cases hidle

/-- The invariant has no pulses left between bursts. -/
theorem Inv.pcnt_eq_zero {s : State} (h : Inv s) (hlow : s.st ≠ .plo) (hhigh : s.st ≠ .phi) : s.pcnt = 0#12 := by
  cases hst : s.st with
  | idle =>
    obtain ⟨-, -, hpcnt, -⟩ := h.idle hst
    exact hpcnt
  | plo => exact absurd hst hlow
  | phi => exact absurd hst hhigh
  | smp =>
    obtain ⟨-, -, hpcnt, -⟩ := h.smp hst
    exact hpcnt
  | asm =>
    obtain ⟨-, -, hpcnt, -⟩ := h.asm hst
    exact hpcnt
  | store =>
    obtain ⟨-, -, hpcnt, -⟩ := h.store hst
    exact hpcnt

/-- From a state of the invariant a step that ends in `IDLE` leaves no pulses, a block reset and a wait included. -/
theorem pcnt_of_step_idle {s t : State} (hinv : Inv s) (h : step s = .next t) (hidle : t.st = .idle) :
    t.pcnt = 0#12 := by
  rcases step_cases h with ⟨-, rfl⟩ | ⟨-, hst, -, rfl⟩ | ⟨-, hst, w, rest, e, -, -, rfl⟩ |
    ⟨-, hst, w, rest, i, -, -, hexec⟩ | ⟨-, -, i, -, hexec⟩
  · rfl
  · exact hinv.pcnt_eq_zero (by simp [hst]) (by simp [hst])
  · exact hinv.pcnt_eq_zero (by simp [hst]) (by simp [hst])
  · exact (pcntMove_of_exec hexec).pcnt_idle (hinv.pcnt_eq_zero · ·) hidle
  · exact (pcntMove_of_exec hexec).pcnt_idle hinv.pcnt_eq_zero hidle

/-! ## The halves of a pulse (43_sequencer_fsm.md R133) -/

/-- The high half with pulses to come counts down and begins the next one. -/
theorem highHalf_more {s : State} (h : s.pcnt - 1#12 ≠ 0#12) (after : State → State) :
    highHalf after s = beginPulse { s with pcnt := s.pcnt - 1#12 } := by
  rw [highHalf_eq_startPulses]
  exact startPulses_pos h after s

/-- The high half of the last pulse is the end of the burst. -/
theorem AfterPulses.exec_last {i : Instr} {after : State → State} (ha : AfterPulses i after) {s : State}
    (hst : s.st = .phi) (hlast : s.pcnt - 1#12 = 0#12) : exec i s = .next (after { s with pcnt := 0#12 }) := by
  have hone : s.pcnt = 1#12 := sub_eq_zero.1 hlast
  rw [ha.pulsesThen.high s hst, highHalf_one hone]

/-- Settles O11: the two halves of a pulse and the end of each burst by `PulsesThen`; `PLO` and `IDLE` by what a
transition can do to the count, `pcntMove_of_exec`. -/
theorem pulseEngineTransitions : Obligations.PulseEngineTransitions := by
  intro s
  refine ⟨fun hst i hi => ?low, fun hst _ hmore i hi => ?more, fun hst hlast => ?last,
    fun i t h => (pcntMove_of_exec h).pcnt_plo, fun t hinv h => pcnt_of_step_idle hinv h⟩
  case low =>
    obtain ⟨after, ha⟩ := exists_afterPulses hi
    exact ha.pulsesThen.low s hst
  case more =>
    obtain ⟨after, ha⟩ := exists_afterPulses hi
    rw [ha.pulsesThen.high s hst, highHalf_more hmore]
    rfl
  case last =>
    refine ⟨fun n => (AfterPulses.clkp n).exec_last hst hlast, AfterPulses.trst.exec_last hst hlast,
      fun a => (AfterPulses.seek a).exec_last hst hlast, ?_⟩
    rintro i (rfl | rfl)
    · exact AfterPulses.capt.exec_last hst hlast
    · exact AfterPulses.walk.exec_last hst hlast

end Sys2Proof.Machine
end

section
/-! PROOFS. The encoding as a whole (30_encoding.md sections 1 to 4): decode and encode agree, the illegal words are the
spec's classes, and a word selects the row of its operation alone. -/

namespace Sys2Proof.Machine

/-! ## The word of an operation (30_encoding.md R60, R62) -/

theorem decode_ok_iff (w : Word) (i : Instr) : decode w = .ok i ↔ encode i = w := by
  refine ⟨encode_of_decode, ?_⟩
  rintro rfl
  exact decode_encode i

theorem encode_inj {i j : Instr} : encode i = encode j ↔ i = j := by
  refine ⟨fun h => ?_, congrArg encode⟩
  have hdecode := (decode_ok_iff (encode j) i).2 h
  rw [decode_encode] at hdecode
  exact (Except.ok.inj hdecode).symm

/-- Settles O2: `decode_encode` by the fields of an operation's word, `encode_of_decode` by the branches of the
decoder. -/
theorem decodeEncodeAgree : Obligations.DecodeEncodeAgree := ⟨decode_encode, fun _ _ => encode_of_decode⟩

/-- Settles O1: the legal words are words of operations, and the illegal ones are rejected by computation. -/
theorem decodeSpecWords : Obligations.DecodeSpecWords :=
  ⟨decode_encode (.clkp 3#12), decode_encode (.clkp 4095#12), decode_encode .samp, decode_encode .trst,
    decode_encode (.seek 5#12), decode_encode .capt, decode_encode .walk, rfl, rfl, rfl⟩

/-! ## The rows of the table (30_encoding.md R62) -/

/-- A row of an operation with an operand is selected by the words of its opcode. -/
theorem selects_opcode (name : String) (o : BitVec 4) (w : Word) :
    (OpRow.mk name 0xF000#16 (o ++ 0#12)).selects w = true ↔ opcField w = o := by
  have hw : w &&& 0xF000#16 = opcField w ++ 0#12 := by
    rw [← append_and_opcMask (opcField w) (argField w), append_fields]
  have hopc : opcField (o ++ 0#12) = o := (Laws.fields_of_append o 0#12).1
  simp only [OpRow.selects, hw, beq_iff_eq]
  refine ⟨fun h => ?_, fun h => by rw [h]⟩
  rw [← hopc, ← h]
  exact (Laws.fields_of_append _ _).1.symm

/-- A row of an operation without operand is selected by one word. -/
theorem selects_word (name : String) (v w : Word) : (OpRow.mk name 0xFFFF#16 v).selects w = true ↔ w = v := by
  have hw : w &&& 0xFFFF#16 = w := BitVec.and_allOnes
  simp only [OpRow.selects, hw, beq_iff_eq]

/-- The rows a word may select, one by one: each says which operations it is the row of. -/
theorem legalWord_iff (w : Word) :
    legalWord w = true ↔ opcField w = 1#4 ∨ w = encode .samp ∨ w = encode .trst ∨ opcField w = 4#4 ∨
      w = encode .capt ∨ w = encode .walk := by
  have hclkp := selects_opcode "CLKP" 1#4 w
  have hseek := selects_opcode "SEEK" 4#4 w
  simp only [legalWord, opcodeTable, List.any_cons, List.any_nil, Bool.or_eq_true, Bool.or_false]
  exact or_congr hclkp (or_congr (selects_word ..) (or_congr (selects_word ..)
    (or_congr hseek (or_congr (selects_word ..) (selects_word ..)))))

/-- A word is that of an operation as soon as its fields are the operation's. -/
theorem encode_eq_iff (i : Instr) (w : Word) : encode i = w ↔ opcField w = i.opcode ∧ argField w = i.operand := by
  refine ⟨?_, fun ⟨hopc, harg⟩ => ?_⟩
  · rintro rfl
    exact wordFields i
  · rw [← append_fields w, hopc, harg, encode]

theorem legalWord_iff_decode (w : Word) : legalWord w = true ↔ ∃ i, decode w = .ok i := by
  simp only [decode_ok_iff]
  constructor
  · rw [legalWord_iff]
    rintro (h | h | h | h | h | h)
    · exact ⟨.clkp (argField w), (encode_eq_iff _ _).2 ⟨h, rfl⟩⟩
    · exact ⟨_, h.symm⟩
    · exact ⟨_, h.symm⟩
    · exact ⟨.seek (argField w), (encode_eq_iff _ _).2 ⟨h, rfl⟩⟩
    · exact ⟨_, h.symm⟩
    · exact ⟨_, h.symm⟩
  · rintro ⟨i, rfl⟩
    exact legalWord_encode i

theorem illegal_of_decode_error {w : Word} {e : DecodeError} (h : decode w = .error e) : legalWord w = false := by
  rw [← Bool.not_eq_true, legalWord_iff_decode, h]
  exact nofun

/-! ## The illegal words (30_encoding.md R64) -/

/-- The classes of illegal words, on the two fields of a word (30_encoding.md section 4). -/
def IllegalFields (opc : BitVec 4) (arg : Arg) : Prop :=
  opc = 0#4 ∨ 7 ≤ opc.toNat ∨ ((opc = 2#4 ∨ opc = 3#4 ∨ opc = 5#4 ∨ opc = 6#4) ∧ arg ≠ 0#12)

/-- The fields of an operation are in none of the classes. -/
theorem not_illegalFields (i : Instr) : ¬ IllegalFields i.opcode i.operand := by
  cases i <;> simp [IllegalFields, Instr.opcode, Instr.operand]

/-- Fields in none of the classes are those of an operation: one for each opcode from 1 to 6. -/
theorem exists_instr_of_fields {opc : BitVec 4} {arg : Arg} (h : ¬ IllegalFields opc arg) :
    ∃ i : Instr, opc = i.opcode ∧ arg = i.operand := by
  simp only [IllegalFields, not_or, not_and, not_not] at h
  obtain ⟨hzero, hlarge, hoperand⟩ := h
  have hcases : ∀ o : BitVec 4, o ≠ 0#4 → ¬ 7 ≤ o.toNat →
      o = 1#4 ∨ o = 2#4 ∨ o = 3#4 ∨ o = 4#4 ∨ o = 5#4 ∨ o = 6#4 := by decide
  rcases hcases opc hzero hlarge with rfl | rfl | rfl | rfl | rfl | rfl
  · exact ⟨.clkp arg, rfl, rfl⟩
  · exact ⟨.samp, rfl, hoperand (by decide)⟩
  · exact ⟨.trst, rfl, hoperand (by decide)⟩
  · exact ⟨.seek arg, rfl, rfl⟩
  · exact ⟨.capt, rfl, hoperand (by decide)⟩
  · exact ⟨.walk, rfl, hoperand (by decide)⟩

theorem exists_decode_iff (w : Word) : (∃ i, decode w = .ok i) ↔ ¬ IllegalFields (opcField w) (argField w) := by
  simp only [decode_ok_iff, encode_eq_iff]
  refine ⟨fun ⟨i, hopc, harg⟩ => ?_, exists_instr_of_fields⟩
  rw [hopc, harg]
  exact not_illegalFields i

/-- Settles O3: legal is decoded (`legalWord_iff_decode`), and a word is decoded exactly when its fields are in none
of the classes (`exists_decode_iff`). -/
theorem illegalWordsAreTheSpecsClasses : Obligations.IllegalWordsAreTheSpecsClasses := by
  intro w
  refine ⟨?_, legalWord_iff_decode w⟩
  rw [← Bool.not_eq_true, legalWord_iff_decode, exists_decode_iff, not_not]
  rfl

/-- Settles O4: row by row, by what selects a row (`selects_opcode`, `selects_word`). -/
theorem decodedWordSelectsItsRowOnly : Obligations.DecodedWordSelectsItsRowOnly := by
  intro w i h r hr
  obtain rfl := encode_of_decode h
  have hopcode (name : String) (o : BitVec 4) :
      (OpRow.mk name 0xF000#16 (o ++ 0#12)).selects (encode i) = true ↔ i.opcode = o := by
    rw [selects_opcode, (wordFields i).1]
  have hword (name : String) (j : Instr) :
      (OpRow.mk name 0xFFFF#16 (encode j)).selects (encode i) = true ↔ i = j := by
    rw [selects_word, encode_inj]
  simp only [opcodeTable, List.mem_cons, List.not_mem_nil, or_false] at hr
  rcases hr with rfl | rfl | rfl | rfl | rfl | rfl
  · refine (hopcode "CLKP" 1#4).trans ?_
    cases i <;> simp [Instr.opcode, Instr.mnemonic]
  · refine (hword "SAMP" .samp).trans ?_
    cases i <;> simp [Instr.mnemonic]
  · refine (hword "TRST" .trst).trans ?_
    cases i <;> simp [Instr.mnemonic]
  · refine (hopcode "SEEK" 4#4).trans ?_
    cases i <;> simp [Instr.opcode, Instr.mnemonic]
  · refine (hword "CAPT" .capt).trans ?_
    cases i <;> simp [Instr.mnemonic]
  · refine (hword "WALK" .walk).trans ?_
    cases i <;> simp [Instr.mnemonic]

end Sys2Proof.Machine
end

section
/-! PROOFS. The transitions of an operation, said once (43_sequencer_fsm.md section 3): where `exec` answers a next
state and which ones it can be. With it the step in `IDLE` and outside it. -/

namespace Sys2Proof.Machine

/-! ## Every transition (43_sequencer_fsm.md R132 to R136) -/

/-- The transitions of an operation from `s`, with the state each leads to. A burst is left as `startPulses`, which
`startPulses_cases` tells apart. -/
inductive Transition : Instr → State → State → Prop
  | clkp {s : State} (hst : s.st = .idle) (n : Arg) :
    Transition (.clkp n) s (startPulses n clkpDone (latch (.clkp n) s))
  | samp {s : State} (hst : s.st = .idle) : Transition .samp s { latch .samp s with st := .smp }
  | trst {s : State} (hst : s.st = .idle) :
    Transition .trst s (startPulses s.cfg.resetPulses trstDone (driveRst false (latch .trst s)))
  | seek {s : State} (hst : s.st = .idle) (a : Arg) :
    Transition (.seek a) s { latch (.seek a) s with cyc := 0#32, st := .smp }
  | capt {s : State} (hst : s.st = .idle) : Transition .capt s { latch .capt s with ph := 0#2, st := .smp }
  | walk {s : State} (hst : s.st = .idle) :
    Transition .walk s { seedWalk (latch .walk s) with ph := 0#2, st := .smp }
  | low {i : Instr} {s : State} {after : State → State} (ha : AfterPulses i after) (hst : s.st = .plo) :
    Transition i s (lowHalf s)
  | high {i : Instr} {s : State} {after : State → State} (ha : AfterPulses i after) (hst : s.st = .phi) :
    Transition i s (startPulses (pcntNext s.pcnt) after s)
  | sampEnd {s : State} (hst : s.st = .smp) :
    Transition .samp s (finish .ok (packSample (takeSample s).sample) (takeSample s))
  | seekEnd {s : State} (hst : s.st = .smp) (a : Arg) (hmatch : qual (takeSample s).sample s.arg = true) :
    Transition (.seek a) s (finish .ok s.cyc (takeSample s))
  | seekPulse {s : State} (hst : s.st = .smp) (a : Arg) (hmatch : ¬ qual (takeSample s).sample s.arg = true) :
    Transition (.seek a) s (beginPulse { takeSample s with pcnt := 1#12 })
  | phase {i : Instr} {s : State} (hi : i = .capt ∨ i = .walk) (hst : s.st = .smp) :
    Transition i s (beginPulse { writeHist s.ph (takeSample s) with pcnt := 1#12 })
  | captEnd {s : State} (hst : s.st = .asm) : Transition .capt s (captAssemble s)
  | walkAssemble {s : State} (hst : s.st = .asm) : Transition .walk s { assemble s with st := .store }
  | walkStore {s : State} (hst : s.st = .store) (hroom : s.pIdx.toNat + 3 < 64) :
    Transition .walk s
      (walkNext (countRecord { s with page := pageWithRecord s.page s.pIdx.toNat s.record }))

/-- The sequencer takes each of these transitions. -/
theorem Transition.exec_eq {i : Instr} {s t : State} (h : Transition i s t) : exec i s = .next t := by
  cases h with
  | clkp hst n => exact exec_clkp_idle hst n
  | samp hst => exact exec_samp_idle hst
  | trst hst => exact exec_trst_idle hst
  | seek hst a => exact exec_seek_idle hst a
  | capt hst => exact exec_capt_idle hst
  | walk hst => exact exec_walk_idle hst
  | low ha hst => exact ha.pulsesThen.low s hst
  | high ha hst => exact ha.pulsesThen.high s hst
  | sampEnd hst => exact exec_samp_smp hst
  | seekEnd hst a hmatch => rw [exec_seek_smp hst, seekSample_eq, if_pos hmatch]
  | seekPulse hst a hmatch => rw [exec_seek_smp hst, seekSample_eq, if_neg hmatch, startPulses_pos (by decide)]
  | phase hi hst => rw [(captures_of hi).sample s hst, phaseSample_eq]
  | captEnd hst => exact exec_capt_asm hst
  | walkAssemble hst => exact exec_walk_asm hst
  | walkStore hst hroom => rw [exec_walk_store hst, walkStore_eq hroom]

/-- In `SMP` the strobe matcher decides between its two transitions (41_cycle_search.md R101). -/
theorem exists_transition_seek {s : State} (hst : s.st = .smp) (a : Arg) : ∃ t, Transition (.seek a) s t := by
  by_cases hmatch : qual (takeSample s).sample s.arg = true
  · exact ⟨_, .seekEnd hst a hmatch⟩
  · exact ⟨_, .seekPulse hst a hmatch⟩

/-- On its path an operation has a transition, in `STORE` when the record has its place in the page
(43_sequencer_fsm.md R137). -/
theorem exists_transition {i : Instr} {s : State} (hpath : onPath i s.st = true)
    (hroom : s.st = .store → s.pIdx.toNat + 3 < 64) : ∃ t, Transition i s t := by
  cases hst : s.st <;> rw [hst] at hpath
  case idle =>
    cases i with
    | clkp n => exact ⟨_, .clkp hst n⟩
    | samp => exact ⟨_, .samp hst⟩
    | trst => exact ⟨_, .trst hst⟩
    | seek a => exact ⟨_, .seek hst a⟩
    | capt => exact ⟨_, .capt hst⟩
    | walk => exact ⟨_, .walk hst⟩
  case plo =>
    obtain ⟨after, ha⟩ := exists_afterPulses (i := i) (by rintro rfl; cases hpath)
    exact ⟨_, .low ha hst⟩
  case phi =>
    obtain ⟨after, ha⟩ := exists_afterPulses (i := i) (by rintro rfl; cases hpath)
    exact ⟨_, .high ha hst⟩
  case smp =>
    cases i with
    | clkp n => cases hpath
    | trst => cases hpath
    | samp => exact ⟨_, .sampEnd hst⟩
    | seek a => exact exists_transition_seek hst a
    | capt => exact ⟨_, .phase (.inl rfl) hst⟩
    | walk => exact ⟨_, .phase (.inr rfl) hst⟩
  case asm =>
    cases i with
    | capt => exact ⟨_, .captEnd hst⟩
    | walk => exact ⟨_, .walkAssemble hst⟩
    | _ => cases hpath
  case store =>
    cases i with
    | walk => exact ⟨_, .walkStore hst (hroom hst)⟩
    | _ => cases hpath

/-- In `STORE` without place for the record WALK stops (20_memory.md R44, log 8). -/
theorem walkStore_no_room {s : State} (h : 64 ≤ s.pIdx.toNat + 3) : walkStore s = .fault .pageIndex := by
  rw [walkStore, storeBytes_none h]

/-- A store that answers a next state has its place in the page. -/
theorem walkStore_of_exec {s t : State} (hst : s.st = .store) (h : exec .walk s = .next t) :
    s.pIdx.toNat + 3 < 64 ∧
      t = walkNext (countRecord { s with page := pageWithRecord s.page s.pIdx.toNat s.record }) := by
  rw [exec_walk_store hst] at h
  by_cases hroom : s.pIdx.toNat + 3 < 64
  · cases (walkStore_eq hroom).symm.trans h
    exact ⟨hroom, rfl⟩
  · cases (walkStore_no_room (by omega)).symm.trans h

/-- Where `exec` answers a next state it takes one of the transitions. -/
theorem transition_of_exec {i : Instr} {s t : State} (h : exec i s = .next t) : Transition i s t := by
  have hroom (hst : s.st = .store) : s.pIdx.toNat + 3 < 64 := by
    have hpath := onPath_of_exec h
    rw [hst] at hpath
    cases i with
    | walk => exact (walkStore_of_exec hst h).1
    | _ => cases hpath
  obtain ⟨t', ht⟩ := exists_transition (onPath_of_exec h) hroom
  cases ht.exec_eq.symm.trans h
  exact ht

/-- Off its path an operation stops by name (43_sequencer_fsm.md R137, log 7). -/
theorem exec_off_path {i : Instr} {s : State} (h : onPath i s.st = false) : exec i s = .fault .noTransition := by
  cases i with
  | clkp n => cases hst : s.st <;> simp [exec, execClkp, onPath, hst] at h ⊢
  | samp => cases hst : s.st <;> simp [exec, execSamp, onPath, hst] at h ⊢
  | trst => cases hst : s.st <;> simp [exec, execTrst, onPath, hst] at h ⊢
  | seek a => cases hst : s.st <;> simp [exec, execSeek, onPath, hst] at h ⊢
  | capt => cases hst : s.st <;> simp [exec, execCapt, onPath, hst] at h ⊢
  | walk => cases h

/-- Settles O15: on the path a transition exists, state by state of `ST`; off it every meaning stops. -/
theorem execAnswersNextOnItsPath : Obligations.ExecAnswersNextOnItsPath := by
  intro i s
  refine ⟨fun hpath hroom => ?_, exec_off_path⟩
  obtain ⟨t, ht⟩ := exists_transition hpath hroom
  exact ⟨t, ht.exec_eq⟩

/-- The count of a burst below 0 wraps (log 15). -/
theorem highHalf_zero {s : State} (h : s.pcnt = 0#12) (after : State → State) :
    highHalf after s = beginPulse { s with pcnt := 0xFFF#12 } := by
  have hnext : pcntNext s.pcnt = 0xFFF#12 := by rw [h]; rfl
  rw [highHalf_eq_startPulses, hnext, startPulses_pos (by decide)]

/-- A walk that is not at address 4096 goes on with the next capture. -/
theorem walkNext_more {s : State} (h : s.wAddr.toNat ≠ 4096) :
    (walkNext s).wAddr = s.wAddr ∧ (walkNext s).st = .smp ∧ (walkNext s).opr = s.opr := by
  rw [walkNext_capture h]
  exact ⟨rfl, rfl, rfl⟩

/-- Settles O48: the wrapped count by `highHalf_zero`, the stop by `walkStore_no_room`, and the wrapped walk index,
which is not 4096. -/
theorem outOfRangeTransitions : Obligations.OutOfRangeTransitions := by
  intro s
  refine ⟨fun hst hpcnt i hi => ?count, fun hst hpIdx => ?page, fun hst hpIdx hwAddr => ?index⟩
  case count =>
    obtain ⟨after, ha⟩ := exists_afterPulses hi
    rw [ha.pulsesThen.high s hst, highHalf_zero hpcnt]
    rfl
  case page => rw [exec_walk_store hst, walkStore_no_room (by omega)]
  case index =>
    have hstore := (Transition.walkStore hst (by omega)).exec_eq
    rw [countRecord_eq] at hstore
    have hmore : (wAddrNext s.wAddr).toNat ≠ 4096 := by
      unfold wAddrNext
      bv_omega
    obtain ⟨hnext, hsmp, hopr⟩ := walkNext_more
      (s := countRecord { s with page := pageWithRecord s.page s.pIdx.toNat s.record })
      (by rw [countRecord_eq]; exact hmore)
    rw [countRecord_eq] at hnext hsmp hopr
    exact ⟨_, hstore, hnext, hsmp, hopr⟩

/-! ## The step (30_encoding.md R61, 43_sequencer_fsm.md R132) -/

/-- Settles O5: `step_accepts`. -/
theorem stepRunsPresentedOperation : Obligations.StepRunsPresentedOperation :=
  fun _ _ _ _ hr hst ho hd => step_accepts hr hst ho hd

/-- Outside `IDLE` with no operation latched the step stops by name (log 7). -/
theorem step_no_operation {s : State} (hr : s.resetReq = false) (hst : s.st ≠ .idle) (hrun : s.running = none) :
    step s = .fault .noOperation := by
  simp [step, stepBusy, hr, hst, hrun]

/-- The opcode latched in `OPR` tells which operation is in progress (10_state.md R25). -/
theorem running_of_opr (s : State) :
    (s.opr = 1#3 → s.running = some (.clkp s.arg)) ∧ (s.opr = 2#3 → s.running = some .samp) ∧
      (s.opr = 3#3 → s.running = some .trst) ∧ (s.opr = 4#3 → s.running = some (.seek s.arg)) ∧
      (s.opr = 5#3 → s.running = some .capt) ∧ (s.opr = 6#3 → s.running = some .walk) ∧
      (s.opr = 0#3 ∨ s.opr = 7#3 → s.running = none) := by
  refine ⟨fun h => ?_, fun h => ?_, fun h => ?_, fun h => ?_, fun h => ?_, fun h => ?_, fun h => ?none⟩
  case none => rcases h with h | h <;> simp [State.running, h]
  all_goals simp [State.running, h]

/-- Settles O6: the step outside `IDLE` (`step_busy`) runs what `OPR` tells (`running_of_opr`). -/
theorem stepContinuesLatchedOperation : Obligations.StepContinuesLatchedOperation := by
  intro s hr hst
  obtain ⟨hclkp, hsamp, htrst, hseek, hcapt, hwalk, hnone⟩ := running_of_opr s
  exact ⟨fun h => step_busy hr hst (hclkp h), fun h => step_busy hr hst (hsamp h),
    fun h => step_busy hr hst (htrst h), fun h => step_busy hr hst (hseek h), fun h => step_busy hr hst (hcapt h),
    fun h => step_busy hr hst (hwalk h), fun h => step_no_operation hr hst (hnone h)⟩

/-- Settles O7: `step_answers_illegal`. -/
theorem illegalWordIsAnsweredOnly : Obligations.IllegalWordIsAnsweredOnly :=
  fun _ _ _ hr hst ho hw => ⟨rfl, step_answers_illegal hr hst ho hw⟩

/-- In `IDLE` with no word presented the step answers the same state (log 5). -/
theorem step_waits {s : State} (hr : s.resetReq = false) (hst : s.st = .idle) (ho : s.ops = []) :
    step s = .next s := by
  simp [step, stepIdle, fetch_eq, hr, hst, ho]

/-- Settles O8: `step_waits`. -/
theorem idleWaitsForWord : Obligations.IdleWaitsForWord := fun _ => step_waits

end Sys2Proof.Machine
end

section
/-! PROOFS. What transitions leave unchanged: the board, the words, the request and the traces for every operation, then
the frame of each operation (00_scope.md R6; the 'state written' paragraphs of 40_bus_sampler.md, 41_cycle_search.md and
42_dump_engine.md). -/

namespace Sys2Proof.Machine

/-! ## What every transition keeps (00_scope.md R6, 90_conflicts.md C9) -/

/-- Both traces of `t` extend those of `s`, and the pins were read as often as `Smp` was recorded. -/
structure Grows (s t : State) : Prop where
  log : ∃ new, t.log = new ++ s.log ∧ t.draws = s.draws + (lineEvents new).count .smp

theorem Grows.of_eq {s t : State} (hlog : t.log = s.log) (hdraws : t.draws = s.draws) : Grows s t :=
  ⟨[], hlog, hdraws⟩

theorem Grows.trans {s t u : State} (h1 : Grows s t) (h2 : Grows t u) : Grows s u := by
  obtain ⟨new1, hlog1, hdraws1⟩ := h1.log
  obtain ⟨new2, hlog2, hdraws2⟩ := h2.log
  refine ⟨new2 ++ new1, by rw [hlog2, hlog1, List.append_assoc], ?_⟩
  rw [hdraws2, hdraws1, lineEvents_append, List.count_append, Nat.add_assoc]

theorem Grows.trace {s t : State} (h : Grows s t) : s.trace <+: t.trace := by
  obtain ⟨new, hlog, -⟩ := h.log
  exact ⟨new.reverse, by rw [trace_eq, trace_eq, hlog, List.reverse_append]⟩

theorem Grows.outTrace {s t : State} (h : Grows s t) : s.outTrace <+: t.outTrace := by
  obtain ⟨new, hlog, -⟩ := h.log
  exact ⟨outEvents new, by rw [outTrace_eq, outTrace_eq, hlog, outEvents_append]⟩

theorem Grows.lineTrace {s t : State} (h : Grows s t) : s.lineTrace <+: t.lineTrace := by
  obtain ⟨new, hlog, -⟩ := h.log
  exact ⟨lineEvents new, by rw [lineTrace_eq, lineTrace_eq, hlog, lineEvents_append]⟩

theorem Grows.draws {s t : State} (h : Grows s t) :
    t.draws + s.lineTrace.count .smp = s.draws + t.lineTrace.count .smp := by
  obtain ⟨new, hlog, hdraws⟩ := h.log
  rw [lineTrace_eq, lineTrace_eq, hlog, lineEvents_append, List.count_append, hdraws]
  omega

/-- What every transition of every operation keeps: the board, the words presented, the request, the mark of the last
block reset, and all that is recorded. -/
structure Keeps (s t : State) : Prop where
  cfg : t.cfg = s.cfg
  ops : t.ops = s.ops
  resetReq : t.resetReq = s.resetReq
  resetMark : t.resetMark = s.resetMark
  grows : Grows s t

theorem Keeps.trans {s t u : State} (h1 : Keeps s t) (h2 : Keeps t u) : Keeps s u :=
  ⟨h2.cfg.trans h1.cfg, h2.ops.trans h1.ops, h2.resetReq.trans h1.resetReq, h2.resetMark.trans h1.resetMark,
    h1.grows.trans h2.grows⟩

theorem beginPulse_keeps (s : State) (k : Arg) : Keeps s (beginPulse { s with pcnt := k }) :=
  ⟨rfl, rfl, rfl, rfl, [.line .fall], rfl, rfl⟩

theorem takeSample_keeps (s : State) : Keeps s (takeSample s) := ⟨rfl, rfl, rfl, rfl, [.line .smp], rfl, rfl⟩

theorem finish_keeps (status : Status) (value : BitVec 32) (s : State) : Keeps s (finish status value s) :=
  ⟨rfl, rfl, rfl, rfl, [.out (.rsp status value)], rfl, rfl⟩

theorem afterPhase_keeps (s : State) (k : Arg) : Keeps s (afterPhase { s with pcnt := k }) := by
  unfold afterPhase
  split <;> exact ⟨rfl, rfl, rfl, rfl, .of_eq rfl rfl⟩

theorem AfterPulses.keeps {i : Instr} {after : State → State} (ha : AfterPulses i after) (s : State) (k : Arg) :
    Keeps s (after { s with pcnt := k }) := by
  cases ha with
  | clkp n => exact ⟨rfl, rfl, rfl, rfl, [.out (.rsp .ok 0#32)], rfl, rfl⟩
  | trst => exact ⟨rfl, rfl, rfl, rfl, [.out (.rsp .ok 0#32), .line .rstHigh], rfl, rfl⟩
  | seek a => exact ⟨rfl, rfl, rfl, rfl, .of_eq rfl rfl⟩
  | capt => exact afterPhase_keeps s k
  | walk => exact afterPhase_keeps s k

theorem AfterPulses.startPulses_keeps {i : Instr} {after : State → State} (ha : AfterPulses i after) (k : Arg)
    (s : State) : Keeps s (startPulses k after s) := by
  rcases startPulses_cases k after s with ⟨-, h⟩ | ⟨-, h⟩
  · exact h ▸ ha.keeps s 0#12
  · exact h ▸ beginPulse_keeps s k

/-- The events of a record's count are outputs. -/
theorem countRecord_keeps (s : State) : Keeps s (countRecord s) := by
  rw [countRecord_eq]
  refine ⟨rfl, rfl, rfl, rfl, _, (List.append_assoc _ _ _).symm, ?_⟩
  split <;> split <;> simp

theorem walkNext_keeps (s : State) : Keeps s (walkNext s) := by
  unfold walkNext
  split
  · exact finish_keeps _ _ _
  · exact ⟨rfl, rfl, rfl, rfl, .of_eq rfl rfl⟩

theorem Transition.keeps {i : Instr} {s t : State} (h : Transition i s t) : Keeps s t := by
  have hlatch (j : Instr) : Keeps s (latch j s) := ⟨rfl, rfl, rfl, rfl, .of_eq rfl rfl⟩
  cases h with
  | clkp hst n => exact (hlatch _).trans ((AfterPulses.clkp n).startPulses_keeps _ _)
  | trst hst =>
    have hlow : Keeps s (driveRst false (latch .trst s)) := ⟨rfl, rfl, rfl, rfl, [.line .rstLow], rfl, rfl⟩
    exact hlow.trans (AfterPulses.trst.startPulses_keeps _ _)
  | high ha hst => exact ha.startPulses_keeps _ _
  | low ha hst => exact ⟨rfl, rfl, rfl, rfl, [.line .rise], rfl, rfl⟩
  | sampEnd hst => exact (takeSample_keeps s).trans (finish_keeps _ _ _)
  | seekEnd hst a hmatch => exact (takeSample_keeps s).trans (finish_keeps _ _ _)
  | seekPulse hst a hmatch => exact (takeSample_keeps s).trans (beginPulse_keeps _ _)
  | phase hi hst => exact ⟨rfl, rfl, rfl, rfl, [.line .fall, .line .smp], rfl, rfl⟩
  | captEnd hst => exact ⟨rfl, rfl, rfl, rfl, [.out (.rsp _ _)], rfl, rfl⟩
  | walkStore hst hroom =>
    have hstore : Keeps s { s with page := pageWithRecord s.page s.pIdx.toNat s.record } :=
      ⟨rfl, rfl, rfl, rfl, .of_eq rfl rfl⟩
    exact hstore.trans ((countRecord_keeps _).trans (walkNext_keeps _))
  | samp hst => exact ⟨rfl, rfl, rfl, rfl, .of_eq rfl rfl⟩
  | seek hst a => exact ⟨rfl, rfl, rfl, rfl, .of_eq rfl rfl⟩
  | capt hst => exact ⟨rfl, rfl, rfl, rfl, .of_eq rfl rfl⟩
  | walk hst => exact ⟨rfl, rfl, rfl, rfl, .of_eq rfl rfl⟩
  | walkAssemble hst => exact ⟨rfl, rfl, rfl, rfl, .of_eq rfl rfl⟩

theorem exec_keeps {i : Instr} {s t : State} (h : exec i s = .next t) : Keeps s t := (transition_of_exec h).keeps

/-- A block reset keeps the board and the target and only adds the events of the lines it finds low. -/
theorem blockReset_grows (s : State) : (blockReset s).cfg = s.cfg ∧ Grows s (blockReset s) := by
  rw [blockReset_eq]
  refine ⟨rfl, releaseEvents s, rfl, ?_⟩
  unfold releaseEvents
  cases s.clk <;> cases s.rstN <;> cases s.cfg.riseFirst <;> simp

theorem step_grows {s t : State} (h : step s = .next t) : t.cfg = s.cfg ∧ Grows s t := by
  rcases step_cases h with ⟨-, rfl⟩ | ⟨-, -, -, rfl⟩ | ⟨-, -, w, rest, e, -, -, rfl⟩ |
    ⟨-, -, w, rest, i, -, -, hexec⟩ | ⟨-, -, i, -, hexec⟩
  · exact blockReset_grows s
  · exact ⟨rfl, .of_eq rfl rfl⟩
  · exact ⟨rfl, [.out (.rsp .errIllegalOp (packWord w))], rfl, rfl⟩
  · have hkeeps := exec_keeps hexec
    exact ⟨hkeeps.cfg, (Grows.of_eq rfl rfl : Grows s { s with ops := rest }).trans hkeeps.grows⟩
  · exact ⟨(exec_keeps hexec).cfg, (exec_keeps hexec).grows⟩

/-- Settles O36: each way to step (`step_cases`) extends the traces, by `Transition.keeps` and `blockReset_grows`. -/
theorem tracesOnlyGrow : Obligations.TracesOnlyGrow := by
  intro s t h
  obtain ⟨hcfg, hgrows⟩ := step_grows h
  exact ⟨hcfg, hgrows.trace, hgrows.outTrace, hgrows.lineTrace, hgrows.draws⟩

/-- Settles O9: the acceptance and the answer to an illegal word take the first word, and no transition takes another.
-/
theorem busyStepAcceptsNoWord : Obligations.BusyStepAcceptsNoWord := by
  intro s t h hr
  rcases step_cases h with ⟨hreq, -⟩ | ⟨-, hst, ho, rfl⟩ | ⟨-, hst, w, rest, e, ho, -, rfl⟩ |
    ⟨-, hst, w, rest, i, ho, -, hexec⟩ | ⟨-, hst, i, -, hexec⟩
  · rw [hr] at hreq
    cases hreq
  · exact ⟨fun hbusy => absurd hst hbusy, fun _ => by rw [ho, List.tail_nil]⟩
  · exact ⟨fun hbusy => absurd hst hbusy, fun _ => by rw [ho, List.tail_cons, illegalOp_ops]⟩
  · exact ⟨fun hbusy => absurd hst hbusy, fun _ => by rw [ho, List.tail_cons, (exec_keeps hexec).ops]⟩
  · exact ⟨fun _ => (exec_keeps hexec).ops, fun hidle => absurd hidle hst⟩

/-! ## Frames of the operations without a history (40_bus_sampler.md, 41_cycle_search.md) -/

/-- CLKP writes the clock, `PCNT` and the latches. -/
theorem clkp_frame {n : Arg} {s t : State} (h : Transition (.clkp n) s t) :
    ∃ clk pcnt opr arg st log, t = { s with clk, pcnt, opr, arg, st, log } := by
  cases h with
  | clkp hst =>
    rcases startPulses_cases n clkpDone (latch (.clkp n) s) with ⟨-, h⟩ | ⟨-, h⟩ <;>
      exact ⟨_, _, _, _, _, _, h⟩
  | low ha hst => exact ⟨_, _, _, _, _, _, rfl⟩
  | high ha hst =>
    cases ha
    rcases startPulses_cases (pcntNext s.pcnt) clkpDone s with ⟨-, h⟩ | ⟨-, h⟩ <;> exact ⟨_, _, _, _, _, _, h⟩
  | phase hi hst => simp at hi

/-- TRST writes both lines, `PCNT` and the latches (decision D31). -/
theorem trst_frame {s t : State} (h : Transition .trst s t) :
    ∃ clk rstN pcnt opr arg st log, t = { s with clk, rstN, pcnt, opr, arg, st, log } := by
  cases h with
  | trst hst =>
    rcases startPulses_cases s.cfg.resetPulses trstDone (driveRst false (latch .trst s)) with ⟨-, h⟩ | ⟨-, h⟩ <;>
      exact ⟨_, _, _, _, _, _, _, h⟩
  | low ha hst => exact ⟨_, _, _, _, _, _, _, rfl⟩
  | high ha hst =>
    cases ha
    rcases startPulses_cases (pcntNext s.pcnt) trstDone s with ⟨-, h⟩ | ⟨-, h⟩ <;> exact ⟨_, _, _, _, _, _, _, h⟩
  | phase hi hst => simp at hi

/-- SAMP writes `S` and the latches (decision D20). -/
theorem samp_frame {s t : State} (h : Transition .samp s t) :
    ∃ sample answers draws opr arg st log, t = { s with sample, answers, draws, opr, arg, st, log } := by
  cases h with
  | samp hst => exact ⟨_, _, _, _, _, _, _, rfl⟩
  | sampEnd hst => exact ⟨_, _, _, _, _, _, _, rfl⟩
  | low ha hst => cases ha
  | high ha hst => cases ha
  | phase hi hst => simp at hi

/-- SEEK writes the clock, `S`, `CYC`, `PCNT` and the latches (decision D20). -/
theorem seek_frame {a : Arg} {s t : State} (h : Transition (.seek a) s t) :
    ∃ clk sample cyc pcnt answers draws opr arg st log,
      t = { s with clk, sample, cyc, pcnt, answers, draws, opr, arg, st, log } := by
  cases h with
  | seek hst => exact ⟨_, _, _, _, _, _, _, _, _, _, rfl⟩
  | seekEnd hst => exact ⟨_, _, _, _, _, _, _, _, _, _, rfl⟩
  | seekPulse hst => exact ⟨_, _, _, _, _, _, _, _, _, _, rfl⟩
  | low ha hst => exact ⟨_, _, _, _, _, _, _, _, _, _, rfl⟩
  | high ha hst =>
    cases ha
    rcases startPulses_cases (pcntNext s.pcnt) seekNext s with ⟨-, h⟩ | ⟨-, h⟩ <;>
      exact ⟨_, _, _, _, _, _, _, _, _, _, h⟩
  | phase hi hst => simp at hi

/-- Settles O32: the fields that the frames of the three operations do not name are as before. -/
theorem samplerOperationsFrame : Obligations.SamplerOperationsFrame := by
  intro i s t h hi
  rcases hi with ⟨n, rfl⟩ | rfl | rfl
  · obtain ⟨clk, pcnt, opr, arg, st, log, rfl⟩ := clkp_frame (transition_of_exec h)
    exact ⟨fun _ => rfl, rfl, rfl, rfl, rfl, rfl, rfl, rfl, rfl, rfl, rfl, rfl, rfl, rfl,
      fun _ => ⟨rfl, rfl, rfl⟩, fun _ => rfl, nofun⟩
  · obtain ⟨clk, rstN, pcnt, opr, arg, st, log, rfl⟩ := trst_frame (transition_of_exec h)
    exact ⟨fun _ => rfl, rfl, rfl, rfl, rfl, rfl, rfl, rfl, rfl, rfl, rfl, rfl, rfl, rfl,
      fun _ => ⟨rfl, rfl, rfl⟩, fun hne => absurd rfl hne, nofun⟩
  · obtain ⟨sample, answers, draws, opr, arg, st, log, rfl⟩ := samp_frame (transition_of_exec h)
    exact ⟨fun _ => rfl, rfl, rfl, rfl, rfl, rfl, rfl, rfl, rfl, rfl, rfl, rfl, rfl, rfl,
      fun hne => absurd rfl hne, fun _ => rfl, fun _ => ⟨rfl, rfl⟩⟩

/-- Settles O33: the fields that the frame of SEEK does not name are as before. -/
theorem seekFrame : Obligations.SeekFrame := by
  intro a s t h
  obtain ⟨clk, sample, cyc, pcnt, answers, draws, opr, arg, st, log, rfl⟩ := seek_frame (transition_of_exec h)
  exact ⟨fun _ => rfl, rfl, rfl, rfl, rfl, rfl, rfl, rfl, rfl, rfl, rfl, rfl, rfl, rfl⟩

/-! ## Frames of the captures (42_dump_engine.md sections 2 and 3) -/

/-- The end of a pulse of a capture, or the next pulse of it, moves the clock, the count and the phase on. -/
theorem startPulses_afterPhase_frame (k : Arg) (s : State) :
    ∃ clk pcnt ph st log, startPulses k afterPhase s = { s with clk, pcnt, ph, st, log } := by
  have hafter (r : State) : ∃ ph st, afterPhase r = { r with ph, st } := by
    unfold afterPhase
    split <;> exact ⟨_, _, rfl⟩
  rcases startPulses_cases k afterPhase s with ⟨-, h⟩ | ⟨-, h⟩
  · obtain ⟨ph, st, hph⟩ := hafter { s with pcnt := 0#12 }
    exact ⟨_, _, _, _, _, h.trans hph⟩
  · exact ⟨_, _, _, _, _, h⟩

/-- CAPT writes the clock, `S`, `H`, `PH`, `REC`, `MM`, `PCNT` and the latches. -/
theorem capt_frame {s t : State} (h : Transition .capt s t) :
    ∃ clk sample hist ph record mm pcnt answers draws opr arg st log,
      t = { s with clk, sample, hist, ph, record, mm, pcnt, answers, draws, opr, arg, st, log } := by
  cases h with
  | capt hst => exact ⟨_, _, _, _, _, _, _, _, _, _, _, _, _, rfl⟩
  | phase hi hst => exact ⟨_, _, _, _, _, _, _, _, _, _, _, _, _, rfl⟩
  | captEnd hst => exact ⟨_, _, _, _, _, _, _, _, _, _, _, _, _, rfl⟩
  | low ha hst => exact ⟨_, _, _, _, _, _, _, _, _, _, _, _, _, rfl⟩
  | high ha hst =>
    cases ha
    obtain ⟨clk, pcnt, ph, st, log, h⟩ := startPulses_afterPhase_frame (pcntNext s.pcnt) s
    exact ⟨_, _, _, _, _, _, _, _, _, _, _, _, _, h⟩

/-- The transitions of a WALK in progress, but for its store, write what CAPT's do. -/
theorem walk_frame {s t : State} (h : Transition .walk s t) (hidle : s.st ≠ .idle) (hstore : s.st ≠ .store) :
    ∃ clk sample hist ph record mm pcnt answers draws opr arg st log,
      t = { s with clk, sample, hist, ph, record, mm, pcnt, answers, draws, opr, arg, st, log } := by
  cases h with
  | walk hst => exact absurd hst hidle
  | phase hi hst => exact ⟨_, _, _, _, _, _, _, _, _, _, _, _, _, rfl⟩
  | walkAssemble hst => exact ⟨_, _, _, _, _, _, _, _, _, _, _, _, _, rfl⟩
  | walkStore hst hroom => exact absurd hst hstore
  | low ha hst => exact ⟨_, _, _, _, _, _, _, _, _, _, _, _, _, rfl⟩
  | high ha hst =>
    cases ha
    obtain ⟨clk, pcnt, ph, st, log, h⟩ := startPulses_afterPhase_frame (pcntNext s.pcnt) s
    exact ⟨_, _, _, _, _, _, _, _, _, _, _, _, _, h⟩

/-- What the store of a record writes after its four bytes (42_dump_engine.md R114, R118). -/
theorem walkNext_countRecord_frame (s : State) :
    ∃ csum wAddr pIdx ph opr st log,
      walkNext (countRecord s) = { s with csum, wAddr, pIdx, ph, opr, st, log } := by
  rw [walkNext_eq, countRecord_eq]
  exact ⟨_, _, _, _, _, _, _, rfl⟩

/-- A capture writes the history entry of its phase alone, and the record and its flag only in `ASM`. -/
theorem capture_frame {i : Instr} (hi : i = .capt ∨ i = .walk) {s t : State} (h : Transition i s t) :
    (∀ p : Phase, p ≠ s.ph → t.histAt p = s.histAt p) ∧ (s.st ≠ .asm → t.record = s.record ∧ t.mm = s.mm) := by
  cases h with
  | clkp hst n => simp at hi
  | trst hst => simp at hi
  | sampEnd hst => simp at hi
  | seekEnd hst a hmatch => simp at hi
  | seekPulse hst a hmatch => simp at hi
  | samp hst => simp at hi
  | seek hst a => simp at hi
  | capt hst => exact ⟨fun _ _ => rfl, fun _ => ⟨rfl, rfl⟩⟩
  | walk hst => exact ⟨fun _ _ => rfl, fun _ => ⟨rfl, rfl⟩⟩
  | low ha hst => exact ⟨fun _ _ => rfl, fun _ => ⟨rfl, rfl⟩⟩
  | phase _ hst => exact ⟨fun p hp => histAt_writeHist_ne hp.symm _, fun _ => ⟨rfl, rfl⟩⟩
  | captEnd hst => exact ⟨fun _ _ => rfl, fun hne => absurd hst hne⟩
  | walkAssemble hst => exact ⟨fun _ _ => rfl, fun hne => absurd hst hne⟩
  | walkStore hst hroom =>
    obtain ⟨csum, wAddr, pIdx, ph, opr, st, log, h⟩ :=
      walkNext_countRecord_frame { s with page := pageWithRecord s.page s.pIdx.toNat s.record }
    rw [h]
    exact ⟨fun _ _ => rfl, fun _ => ⟨rfl, rfl⟩⟩
  | @high _ _ after ha hst =>
    obtain rfl : after = afterPhase := by
      rcases hi with rfl | rfl <;> cases ha <;> rfl
    obtain ⟨clk, pcnt, ph, st, log, h⟩ := startPulses_afterPhase_frame (pcntNext s.pcnt) s
    rw [h]
    exact ⟨fun _ _ => rfl, fun _ => ⟨rfl, rfl⟩⟩

/-- Settles O34: the fields that the frame of CAPT does not name are as before; history and record by `capture_frame`.
-/
theorem captFrame : Obligations.CaptFrame := by
  intro s t h
  have htrans := transition_of_exec h
  have hcapture := capture_frame (.inl rfl) htrans
  obtain ⟨clk, sample, hist, ph, record, mm, pcnt, answers, draws, opr, arg, st, log, rfl⟩ := capt_frame htrans
  exact ⟨fun _ => rfl, rfl, rfl, rfl, rfl, rfl, rfl, rfl, rfl, rfl, rfl, hcapture⟩

/-- Settles O35: by the state of `ST`, what the acceptance seeds, what the store writes and reads back
(`read_pageWithRecord_inside`, `read_pageWithRecord_outside`), and the frame of the other transitions. -/
theorem walkFrame : Obligations.WalkFrame := by
  intro s t h hwf
  have htrans := transition_of_exec h
  obtain ⟨hhist, hrecord⟩ := capture_frame (.inr rfl) htrans
  obtain ⟨hcfg, hops, hreq, hmark, -⟩ := htrans.keeps
  suffices hrest : t.rstN = s.rstN ∧ t.cyc = s.cyc ∧ _ by
    obtain ⟨hrst, hcyc, hpage⟩ := hrest
    exact ⟨hrst, hcyc, hcfg, hops, hreq, hmark, hhist, hrecord, hpage⟩
  by_cases hidle : s.st = .idle
  · cases (exec_walk_idle hidle).symm.trans h
    simp [hidle]
  by_cases hstore : s.st = .store
  · obtain ⟨hroom, rfl⟩ := walkStore_of_exec hstore h
    obtain ⟨csum, wAddr, pIdx, ph, opr, st, log, h⟩ :=
      walkNext_countRecord_frame { s with page := pageWithRecord s.page s.pIdx.toNat s.record }
    rw [h]
    refine ⟨rfl, rfl, fun hne => absurd hstore hne, fun _ =>
      ⟨fun j hj => read_pageWithRecord_outside hwf hroom _ (by omega), ?_, ?_, ?_, ?_, rfl, rfl, rfl, rfl⟩⟩
    · exact read_pageWithRecord_inside hwf hroom _ (b := 0) (by omega)
    · exact read_pageWithRecord_inside hwf hroom _ (b := 1) (by omega)
    · exact read_pageWithRecord_inside hwf hroom _ (b := 2) (by omega)
    · exact read_pageWithRecord_inside hwf hroom _ (b := 3) (by omega)
  · obtain ⟨clk, sample, hist, ph, record, mm, pcnt, answers, draws, opr, arg, st, log, rfl⟩ :=
      walk_frame htrans hidle hstore
    exact ⟨rfl, rfl, fun _ => ⟨rfl, fun _ => ⟨rfl, rfl, rfl⟩⟩, fun heq => absurd heq hstore⟩

end Sys2Proof.Machine
end

section
/-! PROOFS. The invariant of the machine (10_state.md R35, 43_sequencer_fsm.md R130): it holds after reset, every step
keeps it, and in a state of it the machine never stops. -/

namespace Sys2Proof.Machine

/-! ## The parts of the invariant -/

/-- The part of the invariant that looks neither at `ST` nor at the latches. -/
structure Sound (s : State) : Prop where
  page : Page.wf s.page = true
  lines : lineLevels s.lineTrace = some (s.clk, s.rstN)
  mark : s.resetMark ≤ s.lineTrace.length

/-- The lines and the count between two pulses of an operation that does not hold the reset line. -/
structure AtRest (s : State) : Prop where
  clk : s.clk = true
  rstN : s.rstN = true
  pcnt : s.pcnt = 0#12

/-- The part of the invariant that belongs to the state of `ST`. -/
def StateOk (s : State) : Prop :=
  match s.st with
  | .idle => AtRest s ∧ s.opr = 0#3
  | .plo => s.clk = false ∧ pulseOk s
  | .phi => s.clk = true ∧ pulseOk s
  | .smp => AtRest s ∧ (s.opr = 2#3 ∨ s.opr = 4#3 ∨ s.opr = 5#3 ∨ s.opr = 6#3)
  | .asm => AtRest s ∧ s.ph = 3#2 ∧ (s.opr = 5#3 ∨ s.opr = 6#3)
  | .store => AtRest s ∧ s.ph = 3#2 ∧ s.opr = 6#3

theorem atRest_and_iff (s : State) (p : Prop) :
    AtRest s ∧ p ↔ s.clk = true ∧ s.rstN = true ∧ s.pcnt = 0#12 ∧ p :=
  ⟨fun ⟨⟨hclk, hrst, hpcnt⟩, hp⟩ => ⟨hclk, hrst, hpcnt, hp⟩, fun ⟨hclk, hrst, hpcnt, hp⟩ => ⟨⟨hclk, hrst, hpcnt⟩, hp⟩⟩

theorem Inv.sound {s : State} (h : Inv s) : Sound s := ⟨h.page, h.lines, h.mark⟩

theorem Inv.of_parts {s : State} (h : Sound s) (hindex : walkIndexOk s) (hok : StateOk s) : Inv s := by
  unfold StateOk at hok
  constructor
  case page => exact h.page
  case lines => exact h.lines
  case index => exact hindex
  case mark => exact h.mark
  all_goals
    intro hst
    simpa only [hst, atRest_and_iff] using hok

/-! ## The traces and the page, operation by operation -/

/-- A line event keeps the order of the line trace when it follows from the levels. -/
theorem Sound.line {s t : State} {e : LineEvent} (h : Sound s) (hlines : t.lineTrace = s.lineTrace ++ [e])
    (hnext : lineNext (some (s.clk, s.rstN)) e = some (t.clk, t.rstN)) (hpage : t.page = s.page)
    (hmark : t.resetMark = s.resetMark) : Sound t := by
  refine ⟨hpage ▸ h.page, by rw [hlines, lineLevels_snoc, h.lines, hnext], ?_⟩
  have hle := h.mark
  rw [hmark, hlines, List.length_append]
  omega

theorem Sound.beginPulse {s : State} (h : Sound s) (hclk : s.clk = true) : Sound (beginPulse s) :=
  h.line (beginPulse_lineTrace s) (by simp [hclk, lineNext]) rfl rfl

theorem Sound.lowHalf {s : State} (h : Sound s) (hclk : s.clk = false) : Sound (lowHalf s) :=
  h.line (lowHalf_lineTrace s) (by simp [hclk, lineNext]) rfl rfl

theorem Sound.takeSample {s : State} (h : Sound s) (hclk : s.clk = true) : Sound (takeSample s) :=
  h.line (takeSample_lineTrace s) (by simp [hclk, lineNext]) rfl rfl

theorem Sound.driveRst {s : State} (h : Sound s) {b : Bool} (hrst : s.rstN = !b) : Sound (driveRst b s) := by
  refine h.line (driveRst_lineTrace b s) ?_ rfl rfl
  cases b <;> simp [hrst, lineNext]

theorem Sound.finish {s : State} (h : Sound s) (status : Status) (value : BitVec 32) : Sound (finish status value s) :=
  ⟨h.page, by rw [finish_lineTrace]; exact h.lines, by rw [finish_lineTrace]; exact h.mark⟩

/-- The registers that are neither lines nor page take no part. -/
theorem Sound.of_eq {s t : State} (h : Sound s) (hpage : t.page = s.page) (hclk : t.clk = s.clk)
    (hrst : t.rstN = s.rstN) (hlog : t.log = s.log) (hmark : t.resetMark = s.resetMark) : Sound t := by
  have hlines : t.lineTrace = s.lineTrace := congrArg lineEvents hlog
  exact ⟨hpage ▸ h.page, by rw [hlines, hclk, hrst]; exact h.lines, by rw [hlines, hmark]; exact h.mark⟩

/-- The index clause of an operation that is not WALK. -/
theorem walkIndexOk_of_pIdx {s : State} (hopr : s.opr ≠ 6#3) (hpIdx : s.pIdx = 0#7) : walkIndexOk s :=
  ⟨fun h => absurd h hopr, fun _ => hpIdx⟩

/-- The end of an operation leaves the machine idle with the invariant, when the page index is 0. -/
theorem inv_finish {s : State} (h : Sound s) (hrest : AtRest s) (hpIdx : s.pIdx = 0#7) (status : Status)
    (value : BitVec 32) : Inv (finish status value s) := by
  obtain ⟨hclk, hrst, hpcnt⟩ := hrest
  refine Inv.of_parts (h.finish status value) (walkIndexOk_of_pIdx ?_ hpIdx) ?_
  · simp
  · exact And.intro ⟨hclk, hrst, hpcnt⟩ rfl

/-! ## The pulse engine (43_sequencer_fsm.md R131, R133) -/

theorem inv_beginPulse {s : State} (h : Sound s) (hindex : walkIndexOk s) (hclk : s.clk = true) (hok : pulseOk s) :
    Inv (beginPulse s) :=
  Inv.of_parts (h.beginPulse hclk) hindex (And.intro rfl hok)

theorem inv_lowHalf {s : State} (h : Inv s) (hst : s.st = .plo) : Inv (lowHalf s) := by
  obtain ⟨hclk, hok⟩ := h.plo hst
  exact Inv.of_parts (h.sound.lowHalf hclk) h.index (And.intro rfl hok)

theorem AfterPulses.pulsing {i : Instr} {after : State → State} (ha : AfterPulses i after) :
    pulsing (i.opcode.extractLsb' 0 3) = true := by
  cases ha <;> rfl

/-- A burst of operation `i` may start in `s`: the clock is high, and the reset line is low exactly in TRST. -/
structure BurstOk (i : Instr) (s : State) : Prop where
  sound : Sound s
  index : walkIndexOk s
  opr : s.opr = i.opcode.extractLsb' 0 3
  clk : s.clk = true
  rstN : s.rstN = (s.opr != 3#3)

/-- The next phase, or the assembly, of a capture. -/
theorem inv_afterPhase {s : State} (h : Sound s) (hindex : walkIndexOk s) (hrest : AtRest s)
    (hopr : s.opr = 5#3 ∨ s.opr = 6#3) : Inv (afterPhase s) := by
  obtain ⟨hclk, hrst, hpcnt⟩ := hrest
  unfold afterPhase
  split
  · next hph => exact Inv.of_parts (h.of_eq rfl rfl rfl rfl rfl) hindex (And.intro ⟨hclk, hrst, hpcnt⟩ ⟨hph, hopr⟩)
  · exact Inv.of_parts (h.of_eq rfl rfl rfl rfl rfl) hindex (And.intro ⟨hclk, hrst, hpcnt⟩ (.inr (.inr hopr)))

/-- The end of a burst keeps the invariant. -/
theorem AfterPulses.inv {i : Instr} {after : State → State} (ha : AfterPulses i after) {s : State}
    (h : BurstOk i s) (hpcnt : s.pcnt = 0#12) : Inv (after s) := by
  obtain ⟨hsound, hindex, hopr, hclk, hrst⟩ := h
  have hrest (hne : i.opcode.extractLsb' 0 3 ≠ 3#3) : AtRest s := by
    refine ⟨hclk, hrst.trans ?_, hpcnt⟩
    rw [hopr]
    exact bne_iff_ne.2 hne
  have hpIdx (hne : i.opcode.extractLsb' 0 3 ≠ 6#3) : s.pIdx = 0#7 := hindex.2 (hopr ▸ hne)
  cases ha with
  | clkp n => exact inv_finish hsound (hrest (by simp)) (hpIdx (by simp)) _ _
  | trst =>
    have hlow : s.rstN = false := by rw [hrst, hopr]; rfl
    exact inv_finish (hsound.driveRst (b := true) hlow) ⟨hclk, rfl, hpcnt⟩ (hpIdx (by simp)) _ _
  | seek a =>
    obtain ⟨-, hhigh, -⟩ := hrest (by simp)
    exact Inv.of_parts (hsound.of_eq rfl rfl rfl rfl rfl) hindex
      (And.intro ⟨hclk, hhigh, hpcnt⟩ (.inr (.inl hopr)))
  | capt => exact inv_afterPhase hsound hindex (hrest (by simp)) (.inl hopr)
  | walk => exact inv_afterPhase hsound hindex (hrest (by simp)) (.inr hopr)

/-- A burst of any length keeps the invariant; SEEK, CAPT and WALK pulse once. -/
theorem AfterPulses.inv_startPulses {i : Instr} {after : State → State} (ha : AfterPulses i after) {s : State} {k : Arg}
    (h : BurstOk i s) (hone : s.opr ≠ 1#3 → s.opr ≠ 3#3 → k ≠ 0#12 → k = 1#12) : Inv (startPulses k after s) := by
  obtain ⟨hsound, hindex, hopr, hclk, hrst⟩ := h
  rcases startPulses_cases k after s with ⟨-, hs⟩ | ⟨hk, hs⟩ <;> rw [hs]
  · exact ha.inv ⟨hsound.of_eq rfl rfl rfl rfl rfl, hindex, hopr, hclk, hrst⟩ rfl
  · exact inv_beginPulse (hsound.of_eq rfl rfl rfl rfl rfl) hindex hclk
      ⟨(congrArg Machine.pulsing hopr).trans ha.pulsing, hk, hrst, fun h1 h3 => hone h1 h3 hk⟩

/-! ## The store of a record (42_dump_engine.md R117, R118, 20_memory.md R46) -/

/-- After the store of a record the page index is that of the next walk index: 16 records a page. -/
theorem pIdx_after_record {p : BitVec 7} {a : BitVec 13} (ha : a.toNat < 4096) (hp : p.toNat = 4 * (a.toNat % 16)) :
    (if (p + 4#7).toNat = 64 then 0#7 else p + 4#7).toNat = 4 * ((a + 1#13).toNat % 16) := by
  have ha1 : (a + 1#13).toNat = a.toNat + 1 := by bv_omega
  have hp4 : (p + 4#7).toNat = p.toNat + 4 := by bv_omega
  rw [ha1, apply_ite BitVec.toNat, hp4]
  split
  · simp only [BitVec.toNat_ofNat]
    omega
  · omega

/-- After a record the walk goes on, or is over at address 4096, where the page index is 0. -/
theorem inv_walkNext {s : State} (h : Sound s) (hrest : AtRest s) (hopr : s.opr = 6#3) (hwAddr : s.wAddr.toNat ≤ 4096)
    (hpIdx : s.pIdx.toNat = 4 * (s.wAddr.toNat % 16)) : Inv (walkNext s) := by
  by_cases hlast : s.wAddr.toNat = 4096
  · have hzero : s.pIdx = 0#7 := BitVec.eq_of_toNat_eq (by rw [hpIdx, hlast]; rfl)
    rw [walkNext, if_pos hlast]
    exact inv_finish h hrest hzero _ _
  · obtain ⟨hclk, hrst, hpcnt⟩ := hrest
    have hless : s.wAddr.toNat < 4096 := by omega
    rw [walkNext_capture hlast]
    exact Inv.of_parts (h.of_eq rfl rfl rfl rfl rfl) ⟨fun _ => ⟨hless, hpIdx⟩, fun hne => absurd hopr hne⟩
      (And.intro ⟨hclk, hrst, hpcnt⟩ (.inr (.inr (.inr hopr))))

theorem inv_walkStore {s : State} (h : Inv s) (hst : s.st = .store) (hroom : s.pIdx.toNat + 3 < 64) :
    Inv (walkNext (countRecord { s with page := pageWithRecord s.page s.pIdx.toNat s.record })) := by
  obtain ⟨hclk, hrst, hpcnt, -, hopr⟩ := h.store hst
  obtain ⟨hwAddr, hpIdx⟩ : s.wAddr.toNat < 4096 ∧ s.pIdx.toNat = 4 * (s.wAddr.toNat % 16) := h.index.1 hopr
  have hwf : Page.wf (pageWithRecord s.page s.pIdx.toNat s.record) = true := pageWithRecord_wf h.page hroom _
  have hlines := countRecord_lineTrace { s with page := pageWithRecord s.page s.pIdx.toNat s.record }
  have hnext := pIdx_after_record hwAddr hpIdx
  have hle : (wAddrNext s.wAddr).toNat ≤ 4096 := by
    unfold wAddrNext
    bv_omega
  rw [countRecord_eq] at hlines ⊢
  exact inv_walkNext ⟨hwf, hlines ▸ h.lines, hlines ▸ h.mark⟩ ⟨hclk, hrst, hpcnt⟩ hopr hle hnext

/-! ## Every transition -/

theorem opr_of_running {i : Instr} {s : State} (h : s.running = some i) : s.opr = i.opcode.extractLsb' 0 3 := by
  unfold State.running at h
  split_ifs at h with h1 h2 h3 h4 h5 h6 <;> cases h <;> assumption

/-- Operation `i` may take a transition from `s`: it is accepted in `IDLE`, or it is the one in progress. -/
def InCharge (i : Instr) (s : State) : Prop := s.st ≠ .idle → s.opr = i.opcode.extractLsb' 0 3

theorem InCharge.opr {i : Instr} {s : State} (h : InCharge i s) {x : SeqState} (hst : s.st = x) (hx : x ≠ .idle) :
    s.opr = i.opcode.extractLsb' 0 3 :=
  h (hst ▸ hx)

/-- The high half of a pulse keeps the invariant: the rest of the burst starts. -/
theorem AfterPulses.inv_highHalf {i : Instr} {after : State → State} (ha : AfterPulses i after) {s : State} (h : Inv s)
    (hi : InCharge i s) (hst : s.st = .phi) : Inv (startPulses (pcntNext s.pcnt) after s) := by
  obtain ⟨hclk, -, -, hrst, hone⟩ := h.phi hst
  refine ha.inv_startPulses ⟨h.sound, h.index, hi.opr hst nofun, hclk, hrst⟩ fun h1 h3 hk => ?_
  have hpcnt := hone h1 h3
  rw [hpcnt] at hk
  exact absurd rfl hk

/-- A capture's phase keeps the invariant. -/
theorem inv_phase {i : Instr} {s : State} (hi : i = .capt ∨ i = .walk) (h : Inv s) (hcharge : InCharge i s)
    (hst : s.st = .smp) : Inv (beginPulse { writeHist s.ph (takeSample s) with pcnt := 1#12 }) := by
  obtain ⟨hclk, hrst, -, -⟩ := h.smp hst
  have hopr : s.opr = 5#3 ∨ s.opr = 6#3 := by
    rcases hi with rfl | rfl
    · exact .inl (hcharge.opr hst nofun)
    · exact .inr (hcharge.opr hst nofun)
  refine inv_beginPulse ((h.sound.takeSample hclk).of_eq rfl rfl rfl rfl rfl) h.index hclk
    ⟨?_, by simp, hrst.trans ?_, fun _ _ => rfl⟩
  · show pulsing s.opr = true
    rcases hopr with hopr | hopr <;> rw [hopr] <;> rfl
  · show true = (s.opr != 3#3)
    rcases hopr with hopr | hopr <;> rw [hopr] <;> rfl

/-- Every transition keeps the invariant. -/
theorem Transition.inv {i : Instr} {s t : State} (h : Transition i s t) (hinv : Inv s) (hi : InCharge i s) : Inv t := by
  have hsound := hinv.sound
  have hidle (hst : s.st = .idle) : s.pIdx = 0#7 := by
    obtain ⟨-, -, -, hopr⟩ := hinv.idle hst
    exact hinv.index.2 (by simp [hopr])
  cases h with
  | clkp hst n =>
    obtain ⟨hclk, hrst, hpcnt, hopr⟩ := hinv.idle hst
    exact (AfterPulses.clkp n).inv_startPulses
      ⟨hsound.of_eq rfl rfl rfl rfl rfl, walkIndexOk_of_pIdx (by simp) (hidle hst), rfl, hclk, hrst⟩
      fun hne => absurd rfl hne
  | trst hst =>
    obtain ⟨hclk, hrst, hpcnt, hopr⟩ := hinv.idle hst
    have hlatched : Sound (latch .trst s) := hsound.of_eq rfl rfl rfl rfl rfl
    exact AfterPulses.trst.inv_startPulses
      ⟨hlatched.driveRst hrst, walkIndexOk_of_pIdx (by simp) (hidle hst), rfl, hclk, rfl⟩
      fun _ hne => absurd rfl hne
  | samp hst =>
    obtain ⟨hclk, hrst, hpcnt, hopr⟩ := hinv.idle hst
    exact Inv.of_parts (hsound.of_eq rfl rfl rfl rfl rfl) (walkIndexOk_of_pIdx (by simp) (hidle hst))
      (And.intro ⟨hclk, hrst, hpcnt⟩ (.inl rfl))
  | seek hst a =>
    obtain ⟨hclk, hrst, hpcnt, hopr⟩ := hinv.idle hst
    exact Inv.of_parts (hsound.of_eq rfl rfl rfl rfl rfl) (walkIndexOk_of_pIdx (by simp) (hidle hst))
      (And.intro ⟨hclk, hrst, hpcnt⟩ (.inr (.inl rfl)))
  | capt hst =>
    obtain ⟨hclk, hrst, hpcnt, hopr⟩ := hinv.idle hst
    exact Inv.of_parts (hsound.of_eq rfl rfl rfl rfl rfl) (walkIndexOk_of_pIdx (by simp) (hidle hst))
      (And.intro ⟨hclk, hrst, hpcnt⟩ (.inr (.inr (.inl rfl))))
  | walk hst =>
    obtain ⟨hclk, hrst, hpcnt, hopr⟩ := hinv.idle hst
    exact Inv.of_parts (hsound.of_eq rfl rfl rfl rfl rfl)
      ⟨fun _ => ⟨by simp, rfl⟩, fun hne => absurd rfl hne⟩
      (And.intro ⟨hclk, hrst, hpcnt⟩ (.inr (.inr (.inr rfl))))
  | low ha hst => exact inv_lowHalf hinv hst
  | high ha hst => exact ha.inv_highHalf hinv hi hst
  | sampEnd hst =>
    obtain ⟨hclk, hrst, hpcnt, -⟩ := hinv.smp hst
    have hpIdx : s.pIdx = 0#7 := hinv.index.2 (by simp [hi.opr hst])
    exact inv_finish (hsound.takeSample hclk) ⟨hclk, hrst, hpcnt⟩ hpIdx _ _
  | seekEnd hst a hmatch =>
    obtain ⟨hclk, hrst, hpcnt, -⟩ := hinv.smp hst
    have hpIdx : s.pIdx = 0#7 := hinv.index.2 (by simp [hi.opr hst])
    exact inv_finish (hsound.takeSample hclk) ⟨hclk, hrst, hpcnt⟩ hpIdx _ _
  | seekPulse hst a hmatch =>
    obtain ⟨hclk, hrst, hpcnt, -⟩ := hinv.smp hst
    have hopr : s.opr = 4#3 := hi.opr hst nofun
    refine inv_beginPulse ((hsound.takeSample hclk).of_eq rfl rfl rfl rfl rfl) hinv.index hclk
      ⟨?_, by simp, hrst.trans ?_, fun _ _ => rfl⟩
    · exact congrArg pulsing hopr
    · exact congrArg (· != 3#3) hopr.symm
  | phase hc hst => exact inv_phase hc hinv hi hst
  | captEnd hst =>
    obtain ⟨hclk, hrst, hpcnt, -⟩ := hinv.asm hst
    have hpIdx : s.pIdx = 0#7 := hinv.index.2 (by simp [hi.opr hst])
    exact inv_finish (s := assemble s) (hsound.of_eq rfl rfl rfl rfl rfl) ⟨hclk, hrst, hpcnt⟩ hpIdx _ _
  | walkAssemble hst =>
    obtain ⟨hclk, hrst, hpcnt, hph, -⟩ := hinv.asm hst
    exact Inv.of_parts (hsound.of_eq rfl rfl rfl rfl rfl) hinv.index
      (And.intro ⟨hclk, hrst, hpcnt⟩ ⟨hph, hi.opr hst nofun⟩)
  | walkStore hst hroom => exact inv_walkStore hinv hst hroom

/-! ## Block reset (60_exceptions.md R155) -/

/-- The line events of a block reset take the lines from any levels to high. -/
theorem lineLevels_releaseEvents (s : State) (l : List LineEvent) (h : lineLevels l = some (s.clk, s.rstN)) :
    lineLevels (l ++ lineEvents (releaseEvents s)) = some (true, true) := by
  unfold lineLevels at h ⊢
  rw [List.foldl_append, h]
  unfold releaseEvents
  cases s.clk <;> cases s.rstN <;> cases s.cfg.riseFirst <;> rfl

theorem inv_blockReset {s : State} (h : Sound s) : Inv (blockReset s) := by
  rw [blockReset_eq]
  refine Inv.of_parts ⟨rfl, ?_, le_refl _⟩ ⟨nofun, fun _ => rfl⟩ (And.intro ⟨rfl, rfl, rfl⟩ rfl)
  rw [lineTrace_eq, lineEvents_append]
  exact lineLevels_releaseEvents s _ h.lines

/-- The line events of a block reset, in either order: a `Rise` for a low clock, a `RstHigh` for a low reset line. -/
theorem releaseEvents_perm (s : State) :
    (lineEvents (releaseEvents s)).Perm
      ((if s.clk then [] else [LineEvent.rise]) ++ (if s.rstN then [] else [LineEvent.rstHigh])) := by
  unfold releaseEvents
  cases s.clk <;> cases s.rstN <;> cases s.cfg.riseFirst <;> decide

theorem outEvents_releaseEvents (s : State) : outEvents (releaseEvents s) = [] := by
  unfold releaseEvents
  cases s.clk <;> cases s.rstN <;> cases s.cfg.riseFirst <;> rfl

theorem step_of_request {s : State} (h : s.resetReq = true) : step s = .next (blockReset s) := if_pos h

/-- Settles O42: the state of `blockReset_eq`, and the events of `releaseEvents`. -/
theorem blockResetFromAnyState : Obligations.BlockResetFromAnyState := by
  intro s h
  refine ⟨_, lineEvents (releaseEvents s), step_of_request h, ?_⟩
  rw [blockReset_eq]
  refine ⟨rfl, rfl, rfl, rfl, rfl, rfl, rfl, rfl, rfl, rfl, rfl, rfl, rfl, rfl, rfl, ?_, lineEvents_append _ _, rfl,
    releaseEvents_perm s⟩
  rw [outTrace_eq, outEvents_append, outEvents_releaseEvents, List.append_nil, outTrace_eq]

/-! ## Every step -/

/-- The words presented and waiting take no part in the invariant. -/
theorem Inv.with_ops {s : State} (h : Inv s) (rest : List Word) : Inv { s with ops := rest } :=
  ⟨h.page, h.lines, h.index, h.idle, h.plo, h.phi, h.smp, h.asm, h.store, h.mark⟩

/-- The answer to an illegal word is a response and nothing else. -/
theorem Inv.illegalOp {s : State} (h : Inv s) (w : Word) : Inv (illegalOp w s) := by
  have hlines : (Machine.illegalOp w s).lineTrace = s.lineTrace := respond_lineTrace ..
  exact ⟨h.page, hlines ▸ h.lines, h.index, h.idle, h.plo, h.phi, h.smp, h.asm, h.store, hlines ▸ h.mark⟩

/-- Settles O39: each way to step (`step_cases`), the transitions of the operations by `Transition.inv`. -/
theorem stepKeepsTheInvariant : Obligations.StepKeepsTheInvariant := by
  intro s t hinv h
  rcases step_cases h with ⟨-, rfl⟩ | ⟨-, -, -, rfl⟩ | ⟨-, -, w, rest, e, -, -, rfl⟩ |
    ⟨-, hst, w, rest, i, -, -, hexec⟩ | ⟨-, -, i, hrun, hexec⟩
  · exact inv_blockReset hinv.sound
  · exact hinv
  · exact (hinv.with_ops rest).illegalOp w
  · exact (transition_of_exec hexec).inv (hinv.with_ops rest) fun hbusy => absurd hst hbusy
  · exact (transition_of_exec hexec).inv hinv fun _ => opr_of_running hrun

theorem runsTo_inv {n : Nat} {s t : State} (h : runsTo n s t) (hinv : Inv s) : Inv t :=
  keeps_of_step stepKeepsTheInvariant hinv h

/-- Settles O38. -/
theorem resetSatisfiesTheInvariant : Obligations.ResetSatisfiesTheInvariant :=
  Inv.of_parts ⟨rfl, rfl, Nat.zero_le _⟩ ⟨nofun, fun _ => rfl⟩ (And.intro ⟨rfl, rfl, rfl⟩ rfl)

/-- Settles O37. -/
theorem resetHasTheSpecsValues : Obligations.ResetHasTheSpecsValues :=
  ⟨rfl, rfl, rfl, rfl, rfl, rfl, rfl, rfl, rfl, rfl, rfl, rfl, rfl, rfl⟩

/-! ## The machine never stops (43_sequencer_fsm.md section 1) -/

/-- Outside `IDLE` the invariant knows the operation in progress, and `ST` is on its path. -/
theorem Inv.exists_running {s : State} (h : Inv s) (hst : s.st ≠ .idle) :
    ∃ i, s.running = some i ∧ onPath i s.st = true := by
  obtain ⟨hclkp, hsamp, htrst, hseek, hcapt, hwalk, -⟩ := running_of_opr s
  have hpulse (hok : pulseOk s) (hx : s.st = .plo ∨ s.st = .phi) : ∃ i, s.running = some i ∧ onPath i s.st = true := by
    obtain ⟨hpulsing, -⟩ := hok
    simp only [pulsing, Bool.or_eq_true, beq_iff_eq, or_assoc] at hpulsing
    rcases hpulsing with hopr | hopr | hopr | hopr | hopr
    · exact ⟨_, hclkp hopr, by rcases hx with hx | hx <;> rw [hx] <;> rfl⟩
    · exact ⟨_, htrst hopr, by rcases hx with hx | hx <;> rw [hx] <;> rfl⟩
    · exact ⟨_, hseek hopr, by rcases hx with hx | hx <;> rw [hx] <;> rfl⟩
    · exact ⟨_, hcapt hopr, by rcases hx with hx | hx <;> rw [hx] <;> rfl⟩
    · exact ⟨_, hwalk hopr, rfl⟩
  cases hx : s.st with
  | idle => exact absurd hx hst
  | plo => exact hx ▸ hpulse (h.plo hx).2 (.inl hx)
  | phi => exact hx ▸ hpulse (h.phi hx).2 (.inr hx)
  | smp =>
    obtain ⟨-, -, -, hopr⟩ := h.smp hx
    rcases hopr with hopr | hopr | hopr | hopr
    · exact ⟨_, hsamp hopr, rfl⟩
    · exact ⟨_, hseek hopr, rfl⟩
    · exact ⟨_, hcapt hopr, rfl⟩
    · exact ⟨_, hwalk hopr, rfl⟩
  | asm =>
    obtain ⟨-, -, -, -, hopr⟩ := h.asm hx
    rcases hopr with hopr | hopr
    · exact ⟨_, hcapt hopr, rfl⟩
    · exact ⟨_, hwalk hopr, rfl⟩
  | store =>
    obtain ⟨-, -, -, -, hopr⟩ := h.store hx
    exact ⟨_, hwalk hopr, rfl⟩

/-- In `STORE` the record has its place in the page. -/
theorem Inv.room {s : State} (h : Inv s) (hst : s.st = .store) : s.pIdx.toNat + 3 < 64 := by
  obtain ⟨-, -, -, -, hopr⟩ := h.store hst
  obtain ⟨-, hpIdx⟩ := h.index.1 hopr
  omega

/-- Every operation is accepted in `IDLE` (30_encoding.md R61). -/
theorem onPath_idle (i : Instr) : onPath i .idle = true := by
  cases i <;> rfl

/-- Settles O40: a block reset, a wait, the answer to an illegal word, the acceptance of an operation, or the
transition of the operation in progress, which is on its path (`Inv.exists_running`). -/
theorem invariantStatesNeverStop : Obligations.InvariantStatesNeverStop := by
  intro s hinv
  by_cases hr : s.resetReq = true
  · exact ⟨_, step_of_request hr⟩
  have hr : s.resetReq = false := by simpa using hr
  by_cases hst : s.st = .idle
  · cases ho : s.ops with
    | nil => exact ⟨_, step_waits hr hst ho⟩
    | cons w rest =>
      cases hd : decode w with
      | ok i =>
        obtain ⟨t, ht⟩ := exists_transition (i := i) (s := { s with ops := rest }) (by rw [hst, onPath_idle])
          (by simp [hst])
        exact ⟨t, (step_accepts hr hst ho hd).trans ht.exec_eq⟩
      | error e => exact ⟨_, step_answers_illegal hr hst ho (illegal_of_decode_error hd)⟩
  · obtain ⟨i, hrun, hpath⟩ := hinv.exists_running hst
    obtain ⟨t, ht⟩ := exists_transition hpath hinv.room
    exact ⟨t, (step_busy hr hst hrun).trans ht.exec_eq⟩

/-! ## Balance of the line trace (10_state.md section 11) -/

/-- A line trace in order has as many falls as rises, but for the one that holds the line low; both lines alike. -/
theorem count_of_lineLevels {l : List LineEvent} {c r : Bool} (h : lineLevels l = some (c, r)) :
    l.count .fall = l.count .rise + (!c).toNat ∧ l.count .rstLow = l.count .rstHigh + (!r).toNat := by
  induction l using List.reverseRecOn generalizing c r with
  | nil =>
    cases h
    exact ⟨rfl, rfl⟩
  | append_singleton l e ih =>
    rw [lineLevels_snoc] at h
    rcases hl : lineLevels l with _ | ⟨c', r'⟩
    · rw [hl] at h
      cases e <;> cases h
    · obtain ⟨hclk, hrst⟩ := ih hl
      rw [hl] at h
      cases e <;> cases c' <;> cases r' <;> cases h <;> simp [hclk, hrst]

/-- Settles O41: the invariant's clause of `IDLE`, its index clause, and the balance of a line trace in order. -/
theorem idleTracesAreBalanced : Obligations.IdleTracesAreBalanced := by
  intro s hinv hst
  obtain ⟨hclk, hrst, hpcnt, hopr⟩ := hinv.idle hst
  obtain ⟨hfall, hlow⟩ := count_of_lineLevels hinv.lines
  rw [hclk] at hfall
  rw [hrst] at hlow
  exact ⟨hclk, hrst, hpcnt, hopr, hinv.index.2 (by simp [hopr]), hfall, hlow⟩

end Sys2Proof.Machine
end

section
/-! PROOFS. The permutation of the low byte (40_bus_sampler.md section 3) and the packing of response values
(30_encoding.md section 5). -/

namespace Sys2Proof.Machine

/-! ## The permutation (40_bus_sampler.md R84, R89) -/

/-- The gather rule: output bit `i` is input bit `PERM[i]`. -/
theorem perm8_getElem (p : BitPerm) (x : Byte) (i : Fin 8) : (perm8 p x)[i] = x[p.entries[i]] := by
  simp [perm8]

/-- Eight different positions out of eight: `PERM` is a bijection on 0..7. -/
theorem entries_bijective (p : BitPerm) : Function.Bijective fun i : Fin 8 => p.entries[i] := by
  refine Finite.injective_iff_bijective.1 fun i j hij => ?_
  have hlist : p.entries.toList[i]'(by simp) = p.entries.toList[j]'(by simp) := by simpa using hij
  exact Fin.ext ((List.Nodup.getElem_inj_iff p.bijective).1 hlist)

/-- `PERM` as a permutation of the bit positions. -/
noncomputable def bitEquiv (p : BitPerm) : Equiv.Perm (Fin 8) := Equiv.ofBijective _ (entries_bijective p)

theorem byte_ext {x y : Byte} (h : ∀ i : Fin 8, x[i] = y[i]) : x = y :=
  BitVec.eq_of_getElem_eq fun i hi => h ⟨i, hi⟩

theorem perm8_bitEquiv (p : BitPerm) (x : Byte) (i : Fin 8) : (perm8 p x)[i] = x[bitEquiv p i] := perm8_getElem p x i

theorem perm8_injective {p : BitPerm} {x y : Byte} (h : perm8 p x = perm8 p y) : x = y := by
  refine byte_ext fun i => ?_
  have hbit : (perm8 p x)[(bitEquiv p).symm i] = (perm8 p y)[(bitEquiv p).symm i] := by rw [h]
  simpa only [perm8_bitEquiv, Equiv.apply_symm_apply] using hbit

/-- A byte whose bits are all alike is fixed. -/
theorem perm8_const (p : BitPerm) {x : Byte} (b : Bool) (h : ∀ i : Fin 8, x[i] = b) : perm8 p x = x :=
  byte_ext fun i => by rw [perm8_getElem, h, h]

/-- The set bits of an output are those of the input, each at another place. -/
theorem card_perm8 (p : BitPerm) (x : Byte) :
    (Finset.univ.filter fun i : Fin 8 => (perm8 p x)[i] = true).card =
      (Finset.univ.filter fun i : Fin 8 => x[i] = true).card :=
  Finset.card_equiv (bitEquiv p) fun i => by simp only [Finset.mem_filter, Finset.mem_univ, perm8_bitEquiv]

/-- Settles O44: the gather rule, and `PERM` as a permutation of the bit positions; a one-to-one map of the bytes is
onto. -/
theorem permIsABijectionOnBytes : Obligations.PermIsABijectionOnBytes := by
  intro p
  have hinj : Function.Injective (perm8 p) := fun _ _ => perm8_injective
  exact ⟨perm8_getElem p, fun _ _ => perm8_injective, Finite.surjective_of_injective hinj,
    perm8_const p false (by decide), perm8_const p true (by decide), card_perm8 p⟩

/-! ## The packing of response values (30_encoding.md R66) -/

/-- The low part of an appended word. -/
theorem extract_append_low {m n : Nat} (x : BitVec m) (y : BitVec n) : (x ++ y).extractLsb' 0 n = y := by
  rw [BitVec.extractLsb'_append_eq_of_add_le (by omega), BitVec.extractLsb'_eq_self]

/-- The high part of an appended word. -/
theorem extract_append_high {m n : Nat} (x : BitVec m) (y : BitVec n) : (x ++ y).extractLsb' n m = x := by
  rw [BitVec.extractLsb'_append_eq_of_le (le_refl n), Nat.sub_self, BitVec.extractLsb'_eq_self]

/-- The five fields of a response value, each with its own width. -/
theorem packSample_eq (s : Sample) :
    packSample s =
      (0#14 ++ (BitVec.ofBool s.stb ++ (BitVec.ofBool s.num ++ (s.hc ++ s.al))) : BitVec (14 + (1 + (1 + (8 + 8))))) :=
  rfl

theorem packSample_fields (s : Sample) :
    (packSample s).extractLsb' 0 8 = s.al ∧ (packSample s).extractLsb' 8 8 = s.hc ∧
      (packSample s).extractLsb' 16 1 = BitVec.ofBool s.num ∧ (packSample s).extractLsb' 17 1 = BitVec.ofBool s.stb ∧
      (packSample s).extractLsb' 18 14 = 0#14 := by
  rw [packSample_eq]
  refine ⟨?al, ?hc, ?num, ?stb, extract_append_high _ _⟩
  case al =>
    iterate 3 rw [BitVec.extractLsb'_append_eq_of_add_le (by decide)]
    exact extract_append_low _ _
  case hc =>
    iterate 3 rw [BitVec.extractLsb'_append_eq_of_add_le (by decide)]
    exact extract_append_high _ _
  case num =>
    iterate 2 rw [BitVec.extractLsb'_append_eq_of_add_le (by decide)]
    exact extract_append_high _ _
  case stb =>
    rw [BitVec.extractLsb'_append_eq_of_add_le (by decide)]
    exact extract_append_high _ _

/-- A one-bit field is a bit. -/
theorem getLsbD_of_extract {n k : Nat} {w : BitVec n} {b : Bool} (h : w.extractLsb' k 1 = BitVec.ofBool b) :
    w.getLsbD k = b := by
  have hbit := congrArg (BitVec.getLsbD · 0) h
  simpa using hbit

theorem packRecord_eq (r : Vector Byte 4) :
    packRecord r = (r[3] ++ (r[2] ++ (r[1] ++ r[0])) : BitVec (8 + (8 + (8 + 8)))) := rfl

theorem packRecord_fields (r : Vector Byte 4) :
    (packRecord r).extractLsb' 0 8 = r[0] ∧ (packRecord r).extractLsb' 8 8 = r[1] ∧
      (packRecord r).extractLsb' 16 8 = r[2] ∧ (packRecord r).extractLsb' 24 8 = r[3] := by
  rw [packRecord_eq]
  refine ⟨?low, ?second, ?third, extract_append_high _ _⟩
  case low =>
    iterate 2 rw [BitVec.extractLsb'_append_eq_of_add_le (by decide)]
    exact extract_append_low _ _
  case second =>
    iterate 2 rw [BitVec.extractLsb'_append_eq_of_add_le (by decide)]
    exact extract_append_high _ _
  case third =>
    rw [BitVec.extractLsb'_append_eq_of_add_le (by decide)]
    exact extract_append_high _ _

/-- Settles O46: the codes by definition, the fields of SAMP and CAPT by the parts of an appended word, the others are
zero extensions. -/
theorem responseValuesArePacked : Obligations.ResponseValuesArePacked := by
  refine ⟨⟨rfl, rfl, rfl⟩, fun s => ?_, packRecord_fields, fun c => BitVec.toNat_setWidth_of_le (by decide),
    fun w => BitVec.toNat_setWidth_of_le (by decide)⟩
  obtain ⟨hal, hhc, hnum, hstb, hzero⟩ := packSample_fields s
  exact ⟨hal, hhc, getLsbD_of_extract hnum, getLsbD_of_extract hstb, hzero⟩

end Sys2Proof.Machine
end

section
/-! PROOFS. CLKP, SAMP and TRST as whole operations (40_bus_sampler.md), in runs of several operations, and their
agreement with the loop programs (43_sequencer_fsm.md R140). -/

namespace Sys2Proof.Machine

/-! ## From one operation to the next -/

theorem step_resetReq {s t : State} (h : step s = .next t) (hr : s.resetReq = false) : t.resetReq = false := by
  rcases step_cases h with ⟨-, rfl⟩ | ⟨-, -, -, rfl⟩ | ⟨-, -, w, rest, e, -, -, rfl⟩ |
    ⟨-, -, w, rest, i, -, -, hexec⟩ | ⟨-, -, i, -, hexec⟩
  · rw [blockReset_eq]
    rfl
  · exact hr
  · exact hr
  · exact (exec_keeps hexec).resetReq.trans hr
  · exact (exec_keeps hexec).resetReq.trans hr

/-- No step requests a block reset (log 9). -/
theorem runsTo_resetReq {n : Nat} {s t : State} (h : runsTo n s t) (hr : s.resetReq = false) : t.resetReq = false :=
  keeps_of_step (P := fun s => s.resetReq = false) (fun _ _ hr h => step_resetReq h hr) hr h

/-- When an operation is over and a word of operation `j` waits, the BCU is ready for `j`. -/
theorem Ready.next {i j : Instr} {rest : List Word} {n : Nat} {s t : State}
    (h : Ready i (encode j :: rest) s) (hrun : runsTo n s t) (hst : t.st = .idle) (ho : t.ops = encode j :: rest) :
    Ready j rest t :=
  ⟨runsTo_inv hrun h.inv, hst, ho, runsTo_resetReq hrun h.noReset⟩

/-! ## CLKP (30_encoding.md section 3) -/

theorem pulseEvents_add (m n : Nat) : pulseEvents (m + n) = pulseEvents m ++ pulseEvents n := by
  rw [pulseEvents, List.replicate_add, List.flatten_append]
  rfl

/-- What the end of CLKP shows to the operation after it. -/
theorem clkp_ends {s : State} {n : Arg} {rest : List Word} (h : Ready (.clkp n) rest s) :
    ∃ t, runsTo (2 * n.toNat + 1) s t ∧ t.st = .idle ∧ t.ops = rest ∧
      t.lineTrace = s.lineTrace ++ pulseEvents n.toNat :=
  ⟨_, clkp_runsTo h, h.idle, rfl, by simp [lineTrace_eq]⟩

/-- Settles O24: the second burst starts where the first one ends. -/
theorem clkpBurstsAddUp : Obligations.ClkpBurstsAddUp := by
  intro s m n rest h
  obtain ⟨t, hfirst, htst, htops, htlines⟩ := clkp_ends h
  obtain ⟨u, hsecond, hust, huops, hulines⟩ := clkp_ends (h.next hfirst htst htops)
  have hrun := runsTo_trans hfirst hsecond
  rw [show 2 * m.toNat + 1 + (2 * n.toNat + 1) = 2 * (m.toNat + n.toNat) + 2 by omega] at hrun
  refine ⟨u, hrun, hust, huops, ?_⟩
  rw [hulines, htlines, List.append_assoc, ← pulseEvents_add]

/-! ## SAMP (40_bus_sampler.md R87) -/

/-- SAMP takes two steps: its acceptance and its sample. -/
theorem samp_runsTo {s : State} {rest : List Word} (h : Ready .samp rest s) :
    runsTo 2 s (atEnd .samp rest (ruleSamp s)) := by
  have haccept := (step_ready h).trans (exec_samp_idle (s := { s with ops := rest }) h.idle)
  have hrun : Running .samp (latch .samp { s with ops := rest }) := ⟨h.noReset, rfl⟩
  have hsample := (hrun.step .smp nofun).trans (exec_samp_smp rfl)
  exact runsTo_trans (runsTo_one haccept) (runsTo_one hsample)

/-- The end of SAMP: the sample in `S`, its event and its response in the trace. -/
theorem atEnd_ruleSamp {s : State} {rest : List Word} (h : Ready .samp rest s) :
    atEnd .samp rest (ruleSamp s) =
      { s with
        ops := rest, arg := 0#12, sample := s.sampleAt 0, answers := s.answers.tail, draws := s.draws + 1
        log := .out (.rsp .ok (packSample (s.sampleAt 0))) :: .line .smp :: s.log } := by
  obtain ⟨-, -, -, hopr⟩ := h.inv.idle h.idle
  simp [atEnd, ruleSamp, respond, emit, takeSample, State.sampleAt, Instr.operand, hopr, h.idle]

/-- Settles O17: `samp_runsTo`, to the end that `atEnd_ruleSamp` writes out. -/
theorem sampTakesOneSample : Obligations.SampTakesOneSample := by
  intro s rest h
  have hrun := samp_runsTo h
  rw [atEnd_ruleSamp h] at hrun
  exact ⟨_, hrun, rfl, by simp [trace_eq]⟩

/-- Under A-SYNC two samples of a run are equal when the clock and reset events before them are (00_scope.md R8). -/
theorem ASync.sampleAt_eq {s t u : State} (h : ASync s) (ht : reaches s t) (hu : reaches s u) (htp : readsPins t)
    (hup : readsPins u) (hlines : withoutSamples t.lineTrace = withoutSamples u.lineTrace) (hcfg : t.cfg = u.cfg) :
    t.sampleAt 0 = u.sampleAt 0 := by
  obtain ⟨f, hf⟩ := h
  rw [State.sampleAt, State.sampleAt, hf t ht htp, hf u hu hup, hlines, hcfg]

/-- The acceptance of SAMP leaves it about to sample. -/
theorem samp_accepted {s : State} {rest : List Word} (h : Ready .samp rest s) :
    ∃ t, runsTo 1 s t ∧ readsPins t ∧ t.lineTrace = s.lineTrace ∧ t.cfg = s.cfg ∧ t.sampleAt 0 = s.sampleAt 0 :=
  ⟨_, runsTo_one ((step_ready h).trans (exec_samp_idle (s := { s with ops := rest }) h.idle)), ⟨h.noReset, rfl⟩, rfl,
    rfl, rfl⟩

/-- What the end of SAMP shows to the operation after it. -/
theorem samp_ends {s : State} {rest : List Word} (h : Ready .samp rest s) :
    ∃ t, runsTo 2 s t ∧ t.st = .idle ∧ t.ops = rest ∧ t.cfg = s.cfg ∧ t.lineTrace = s.lineTrace ++ [.smp] ∧
      t.outTrace = s.outTrace ++ [.rsp .ok (packSample (s.sampleAt 0))] := by
  have hrun := samp_runsTo h
  rw [atEnd_ruleSamp h] at hrun
  exact ⟨_, hrun, h.idle, rfl, rfl, by simp [lineTrace_eq], by simp [outTrace_eq]⟩

/-- Settles O23: between the two samples there is no clock or reset event, so the target gives the same answer. -/
theorem sampAgainGivesTheSameSample : Obligations.SampAgainGivesTheSameSample := by
  intro s rest h hsync
  obtain ⟨t, hfirst, htst, htops, htcfg, htlines, htouts⟩ := samp_ends h
  have hready := h.next hfirst htst htops
  obtain ⟨u, hsecond, hust, -, -, -, huouts⟩ := samp_ends hready
  obtain ⟨s1, hs1, hs1p, hs1lines, hs1cfg, hs1sample⟩ := samp_accepted h
  obtain ⟨t1, ht1, ht1p, ht1lines, ht1cfg, ht1sample⟩ := samp_accepted hready
  have hlines : withoutSamples t1.lineTrace = withoutSamples s1.lineTrace := by
    rw [hs1lines, ht1lines, htlines]
    simp [withoutSamples]
  have hsample : t.sampleAt 0 = s.sampleAt 0 := by
    rw [← ht1sample, ← hs1sample]
    exact hsync.sampleAt_eq ⟨_, runsTo_trans hfirst ht1⟩ ⟨_, hs1⟩ ht1p hs1p hlines (by rw [ht1cfg, htcfg, hs1cfg])
  refine ⟨u, packSample (s.sampleAt 0), runsTo_trans hfirst hsecond, hust, ?_⟩
  rw [huouts, htouts, hsample, List.append_assoc]
  rfl

/-! ## TRST (40_bus_sampler.md R88) -/

/-- The pulse loop of a loop program and the burst of the sequencer leave the same (40_bus_sampler.md R80). -/
theorem rulePulses_eq {s : State} (hclk : s.clk = true) (k : Arg) : rulePulses k s = pulsed k.toNat s := by
  have hloop (n : Nat) (r : State) (hc : r.clk = true) (hn : r.pcnt.toNat = n) : rulePulseLoop n r = pulsed n r := by
    induction n generalizing r with
    | zero =>
      obtain hzero : r.pcnt = 0#12 := BitVec.eq_of_toNat_eq hn
      simp [rulePulseLoop, pulsed, pulseEvents, ← hzero]
    | succ n ih =>
      have hnext : (pcntNext r.pcnt).toNat = n := by
        unfold pcntNext
        bv_omega
      rw [rulePulseLoop, ih (rulePulse r) rfl hnext]
      simp [rulePulse, driveClk, emit, pulsed, pulseEvents_succ, hc]
  exact hloop k.toNat { s with pcnt := k } hclk rfl

/-- TRST takes its acceptance and two steps for each pulse. -/
theorem trst_runsTo {s : State} {rest : List Word} (h : Ready .trst rest s) :
    runsTo (2 * s.cfg.resetPulses.toNat + 1) s (atEnd .trst rest (ruleTrst s)) := by
  obtain ⟨hclk, -, -, -⟩ := h.inv.idle h.idle
  have haccept := (step_ready h).trans (exec_trst_idle (s := { s with ops := rest }) h.idle)
  have hburst := startPulses_runsTo trst_pulsesThen (s := driveRst false (latch .trst { s with ops := rest }))
    (k := s.cfg.resetPulses) rfl h.noReset rfl hclk
  have hend : trstDone (pulsed s.cfg.resetPulses.toNat (driveRst false (latch .trst { s with ops := rest }))) =
      atEnd .trst rest (ruleTrst s) := by
    rw [ruleTrst, rulePulses_eq (s := driveRst false s) hclk]
    rfl
  exact (steps_succ_of_next haccept _).trans (hend ▸ hburst)

/-- The end of TRST: both lines as before, the events of the reset line around the pulses in the trace. -/
theorem atEnd_ruleTrst {s : State} {rest : List Word} (h : Ready .trst rest s) :
    atEnd .trst rest (ruleTrst s) =
      { s with
        ops := rest, arg := 0#12
        log := .out (.rsp .ok 0#32) :: .line .rstHigh ::
          (((pulseEvents s.cfg.resetPulses.toNat).map .line).reverse ++ .line .rstLow :: s.log) } := by
  obtain ⟨hclk, hrst, hpcnt, hopr⟩ := h.inv.idle h.idle
  rw [ruleTrst, rulePulses_eq (s := driveRst false s) hclk]
  simp [atEnd, respond, emit, driveRst, pulsed, Instr.operand, hrst, hpcnt, hopr, h.idle]

/-- Settles O18: `trst_runsTo`, to the end that `atEnd_ruleTrst` writes out. -/
theorem trstResetsTheTarget : Obligations.TrstResetsTheTarget := by
  intro s rest h
  obtain ⟨hclk, hrst, hpcnt, -⟩ := h.inv.idle h.idle
  have hrun := trst_runsTo h
  rw [atEnd_ruleTrst h] at hrun
  exact ⟨_, hrun, rfl, hrst, hclk, hpcnt, by simp [trace_eq]⟩

/-! ## Agreement with the loop programs (43_sequencer_fsm.md R140) -/

theorem atEnd_ruleClkp {s : State} {n : Arg} {rest : List Word} (h : Ready (.clkp n) rest s) :
    atEnd (.clkp n) rest (ruleClkp n s) =
      { s with
        ops := rest, arg := n
        log := .out (.rsp .ok 0#32) :: (((pulseEvents n.toNat).map .line).reverse ++ s.log) } := by
  obtain ⟨hclk, -, hpcnt, hopr⟩ := h.inv.idle h.idle
  rw [ruleClkp, rulePulses_eq hclk]
  simp [atEnd, respond, emit, pulsed, Instr.operand, hpcnt, hopr, h.idle]

/-- Settles O29: each operation as a whole ends where its loop program does. -/
theorem sequencerAgreesWithBoundedRules : Obligations.SequencerAgreesWithBoundedRules := by
  intro s rest
  refine ⟨fun n h => ?_, samp_runsTo, trst_runsTo, capt_runsTo⟩
  rw [atEnd_ruleClkp h]
  exact clkp_runsTo h

end Sys2Proof.Machine
end

section
/-! PROOFS. What a WALK gives out (42_dump_engine.md section 4): the round trip, the checksum of uniform contents, a
board with equal phases, and the agreement with the loop program. -/

namespace Sys2Proof.Machine

/-- Settles O31: `walk_runsTo`, whose loop is that of the loop program. -/
theorem sequencerAgreesWithWalkRule : Obligations.SequencerAgreesWithWalkRule := by
  intro s rest h
  obtain ⟨r, hloop, -, -, hrun⟩ := walk_runsTo h
  exact ⟨_, by simp only [ruleWalk, hloop, Option.map_some], hrun⟩

/-! ## The page stream (20_memory.md R46) -/

theorem pageStream_append (l m : List OutEvent) : pageStream (l ++ m) = pageStream l ++ pageStream m :=
  List.flatMap_append

/-- The pages of a record are the page it fills, if any. -/
theorem pageStream_walkEvents (s : State) (i : Nat) :
    pageStream (s.walkEvents i) = if i % 16 = 15 then s.walkPage (i / 16) else [] := by
  unfold State.walkEvents
  rw [pageStream_append]
  split <;> split <;> simp [pageStream]

/-- The pages of the sixteen records of page `q` are page `q`, which its last record fills. -/
theorem pageStream_page (s : State) (q : Nat) :
    pageStream ((List.range 16).flatMap fun k => s.walkEvents (16 * q + k)) = s.walkPage q := by
  have hnone (k : Nat) (hk : k < 15) : pageStream (s.walkEvents (16 * q + k)) = [] := by
    rw [pageStream_walkEvents, if_neg (by omega)]
  have hlast : pageStream (s.walkEvents (16 * q + 15)) = s.walkPage q := by
    rw [pageStream_walkEvents, if_pos (by omega), show (16 * q + 15) / 16 = q by omega]
  have hfirst : pageStream ((List.range 15).flatMap fun k => s.walkEvents (16 * q + k)) = [] := by
    rw [pageStream, List.flatMap_assoc, List.flatMap_eq_nil_iff]
    exact fun k hk => hnone k (List.mem_range.1 hk)
  rw [List.range_succ, List.flatMap_append, pageStream_append, hfirst, List.flatMap_singleton, hlast, List.nil_append]

/-- The page stream of the first `16 q` records is the records themselves, one after the other. -/
theorem pageStream_walk (s : State) (q : Nat) :
    pageStream ((List.range (16 * q)).flatMap s.walkEvents) = s.dumpStream (16 * q) := by
  induction q with
  | zero => rfl
  | succ q ih =>
    have hpage : s.walkPage q = ((List.range 16).map (16 * q + ·)).flatMap fun i => (s.walkRecord i).toList := by
      rw [List.flatMap_map, State.walkPage]
    have hevents : ((List.range 16).map (16 * q + ·)).flatMap s.walkEvents =
        (List.range 16).flatMap fun k => s.walkEvents (16 * q + k) := List.flatMap_map ..
    rw [Nat.mul_succ, List.range_add, List.flatMap_append, pageStream_append, ih, hevents, pageStream_page, hpage,
      State.dumpStream, State.dumpStream, List.range_add, List.flatMap_append]

/-! ## A walk without mismatch (42_dump_engine.md R120) -/

/-- A walk gives no `Diag` when none of its records mismatches. -/
theorem noDiag_walk {s : State} {n : Nat} {status : Status} {v : BitVec 32}
    (h : ∀ i, i < n → mismatch (s.walkRecord i) = false) :
    noDiag ((List.range n).flatMap s.walkEvents ++ [.rsp status v]) := by
  intro d hd
  simp only [List.mem_append, List.mem_flatMap, List.mem_range, List.mem_singleton, reduceCtorEq, or_false] at hd
  obtain ⟨i, hi, hmem⟩ := hd
  rw [State.walkEvents, if_neg (by simp [h i hi])] at hmem
  split at hmem <;> simp at hmem

/-- The whole output of a WALK, its end, and its registers. -/
theorem walk_ends {s : State} {rest : List Word} (h : Ready .walk rest s) :
    ∃ t, runsTo 57345 s t ∧ t.st = .idle ∧ t.csum = s.walkCsum 4096 ∧ t.record = s.walkRecord 4095 ∧
      t.mm = mismatch (s.walkRecord 4095) ∧
      t.outTrace = s.outTrace ++ ((List.range 4096).flatMap s.walkEvents ++
        [.rsp .ok ((s.walkCsum 4096).setWidth 32)]) := by
  obtain ⟨r, -, hw, hlast, hrun⟩ := walk_runsTo h
  refine ⟨_, hrun, rfl, hw.csum, hlast.record, hlast.mm, ?_⟩
  rw [← List.append_assoc, ← hw.outs, ← hw.csum]
  exact respond_outTrace _ _ r

/-- Settles O27: the page stream is the dump stream (`pageStream_walk`), whose records the premise gives. -/
theorem walkRoundTrip : Obligations.WalkRoundTrip := by
  intro s rest f h hshow
  obtain ⟨t, hrun, -, -, -, -, hout⟩ := walk_ends h
  have hrecord (i : Nat) (hi : i < 4096) :
      s.walkRecord i = #v[BitVec.ofNat 8 (i / 256), BitVec.ofNat 8 i, BitVec.ofNat 8 (i / 256), f i] := by
    obtain ⟨hahc, haal, hdhc, hdal⟩ := hshow i hi
    simp only [State.walkRecord, recordAt_eq, recordOf, hahc, haal, hdhc, hdal]
  refine ⟨t, _, hrun, hout, noDiag_walk fun i hi => ?_, ?_⟩
  · rw [hrecord i hi]
    simp [mismatch]
  · have hpages := pageStream_walk s 256
    rw [show 16 * 256 = 4096 by norm_num] at hpages
    rw [pageStream_append, hpages, State.dumpStream, pageStream]
    simp only [List.flatMap_singleton, List.append_nil]
    refine List.flatMap_congr fun i hi => ?_
    rw [hrecord i (List.mem_range.1 hi)]
    rfl

/-! ## The checksum (42_dump_engine.md R116, section 4) -/

/-- The reserved region leaves the seed. -/
theorem walkCsum_reserved (s : State) {n : Nat} (hn : n ≤ 128) : s.walkCsum n = 0x81#8 := by
  induction n with
  | zero => rfl
  | succ n ih =>
    have hindex : ¬ 128 ≤ (BitVec.ofNat 13 n).toNat := by
      rw [BitVec.toNat_ofNat]
      omega
    rw [walkCsum_succ, csumNext_eq, if_neg hindex, ih (by omega)]

/-- Outside the reserved region the data byte of each record is added. -/
theorem walkCsum_add (s : State) {n : Nat} (hmin : 128 ≤ n) (hmax : n < 4096) :
    s.walkCsum (n + 1) = s.walkCsum n + (s.walkRecord n)[3] := by
  have hindex : 128 ≤ (BitVec.ofNat 13 n).toNat := by
    rw [BitVec.toNat_ofNat]
    omega
  rw [walkCsum_succ, csumNext_eq, if_pos hindex]

/-- The checksum of records whose data bytes are all `d`. -/
theorem walkCsum_uniform {s : State} {d : Byte} (hd : ∀ i, 128 ≤ i → i < 4096 → (s.walkRecord i)[3] = d) {n : Nat}
    (hn : n ≤ 3968) : s.walkCsum (128 + n) = 0x81#8 + BitVec.ofNat 8 n * d := by
  induction n with
  | zero => simp [walkCsum_reserved s (le_refl 128)]
  | succ n ih =>
    rw [← Nat.add_assoc, walkCsum_add s (by omega) (by omega), ih (by omega), hd _ (by omega) (by omega),
      BitVec.ofNat_add, BitVec.add_mul, BitVec.add_assoc, BitVec.one_mul]

/-- The checksum depends on the data bytes outside the reserved region alone. -/
theorem walkCsum_congr {s s' : State} (h : ∀ i, 128 ≤ i → i < 4096 → (s.walkRecord i)[3] = (s'.walkRecord i)[3])
    {n : Nat} (hn : n ≤ 4096) : s.walkCsum n = s'.walkCsum n := by
  induction n with
  | zero => rfl
  | succ n ih =>
    by_cases hres : n < 128
    · rw [walkCsum_reserved s hres, walkCsum_reserved s' hres]
    · rw [walkCsum_add s (by omega) (by omega), walkCsum_add s' (by omega) (by omega), ih (by omega),
        h n (by omega) (by omega)]

/-- Settles O28: 3968 equal data bytes are added to the seed (`walkCsum_uniform`). -/
theorem walkChecksumOfUniformRoms : Obligations.WalkChecksumOfUniformRoms := by
  refine ⟨fun s rest d h hd hdata => ?_, fun s s' h => walkCsum_congr h (le_refl 4096)⟩
  obtain ⟨t, hrun, -, hcsum, -, -, hout⟩ := walk_ends h
  have hsum : s.walkCsum 4096 = if d = 0x00#8 then 0x81#8 else 0x01#8 := by
    rw [show 4096 = 128 + 3968 from rfl, walkCsum_uniform hdata (le_refl 3968)]
    rcases hd with rfl | rfl <;> decide
  rw [← List.append_assoc] at hout
  refine ⟨t, (List.range 4096).flatMap s.walkEvents, hrun, hcsum.trans hsum, ?_⟩
  rw [hout, hsum]
  rcases hd with rfl | rfl <;> rfl

/-! ## A board with `A_PH = D_PH` (93_implementation_defined.md U10) -/

/-- With equal phases both halves of a record are the same sample. -/
theorem recordAt_of_same_phase {s : State} (h : s.cfg.aPh = s.cfg.dPh) (j : Nat) :
    (s.recordAt j)[0] = (s.recordAt j)[2] ∧ (s.recordAt j)[1] = (s.recordAt j)[3] := by
  rw [recordAt_eq, h]
  exact ⟨rfl, rfl⟩

theorem mismatch_eq_false {r : Vector Byte 4} (h : r[0] = r[2]) : mismatch r = false := by
  simp [mismatch, h]

/-- The output trace is the trace without its line events. -/
theorem outTrace_of_trace {s t : State} {lines : List LineEvent} {e : OutEvent}
    (h : t.trace = s.trace ++ lines.map .line ++ [.out e]) : t.outTrace = s.outTrace ++ [e] := by
  have hlog : t.log = .out e :: ((lines.map .line).reverse ++ s.log) := by
    rw [← List.reverse_inj, ← trace_eq, h]
    simp [trace_eq]
  rw [outTrace_eq, hlog, outEvents_out, outEvents_append, outEvents_map_line, List.append_nil, outTrace_eq]

/-- Settles O47: no record mismatches (`recordAt_of_same_phase`), in the whole CAPT and in the whole WALK. -/
theorem samePhasesNeverMismatch : Obligations.SamePhasesNeverMismatch := by
  intro s rest hphase
  have hsame := recordAt_of_same_phase hphase
  have hmm (i : Nat) : mismatch (s.walkRecord i) = false := mismatch_eq_false (hsame (4 * i)).1
  refine ⟨fun h => ?_, fun h => ⟨fun i => hsame (4 * i), ?_⟩⟩
  · obtain ⟨hhigh, hlow⟩ := hsame 0
    obtain ⟨t, hrun, ht, htrace⟩ := captCapturesFourPhases s rest h
    have hrecord : t.record = s.recordAt 0 := by rw [ht]
    have hflag : t.mm = mismatch (s.recordAt 0) := by
      rw [ht]
      rfl
    refine ⟨t, packRecord (s.recordAt 0), hrun, hflag.trans (mismatch_eq_false hhigh), by rw [hrecord]; exact hhigh,
      by rw [hrecord]; exact hlow, ?_⟩
    rw [if_pos hhigh] at htrace
    exact outTrace_of_trace htrace
  · obtain ⟨t, hrun, hst, -, hrecord, htmm, hout⟩ := walk_ends h
    obtain ⟨hhigh, hlow⟩ := hsame (4 * 4095)
    exact ⟨t, _, hrun, hst, htmm.trans (hmm 4095), by rw [hrecord]; exact hhigh, by rw [hrecord]; exact hlow, hout,
      noDiag_walk fun i _ => hmm i⟩

end Sys2Proof.Machine
end

section
/-! PROOFS. SEEK as a whole (41_cycle_search.md): its turns in the sequencer and in the loop program, its first match, a
search without a match, and what the premises on the target say of its answer. -/

namespace Sys2Proof.Machine

/-! ## Runs and what holds along them -/

/-- What is left of a run after its first part. -/
theorem runsTo_split {m n : Nat} {s t u : State} (h : runsTo (m + n) s u) (h1 : runsTo m s t) : runsTo n t u := by
  induction m generalizing s with
  | zero =>
    cases h1
    simpa using h
  | succ m ih =>
    rw [show m + 1 + n = m + n + 1 by omega] at h
    unfold runsTo steps at h h1
    cases hs : step s with
    | next s1 =>
      rw [hs] at h h1
      exact ih h h1
    | fault r => simp [hs] at h1
    | refused r => simp [hs] at h1

theorem runsTo_unique {n : Nat} {s t u : State} (h1 : runsTo n s t) (h2 : runsTo n s u) : t = u :=
  Host.Outcome.next.inj (h1.symm.trans h2)

theorem runsTo_lineTrace {n : Nat} {s t : State} (h : runsTo n s t) : s.lineTrace <+: t.lineTrace :=
  keeps_of_step (P := fun u => s.lineTrace <+: u.lineTrace)
    (fun _ _ hu hstep => hu.trans (step_grows hstep).2.lineTrace) ⟨[], List.append_nil _⟩ h

/-- A run of `n` steps with `P` in every state of it, first and last included. -/
structure RunsThrough (P : State → Prop) (n : Nat) (s t : State) : Prop where
  run : runsTo n s t
  all : ∀ m, m ≤ n → ∃ u, runsTo m s u ∧ P u

theorem RunsThrough.refl {P : State → Prop} {s : State} (h : P s) : RunsThrough P 0 s s :=
  ⟨rfl, fun m hm => ⟨s, by rw [Nat.le_zero.1 hm]; rfl, h⟩⟩

theorem RunsThrough.trans {P : State → Prop} {m n : Nat} {s t u : State} (h1 : RunsThrough P m s t)
    (h2 : RunsThrough P n t u) : RunsThrough P (m + n) s u := by
  refine ⟨runsTo_trans h1.run h2.run, fun k hk => ?_⟩
  by_cases hkm : k ≤ m
  · exact h1.all k hkm
  · obtain ⟨v, hv, hP⟩ := h2.all (k - m) (by omega)
    have hrun := runsTo_trans h1.run hv
    rw [show m + (k - m) = k by omega] at hrun
    exact ⟨v, hrun, hP⟩

theorem RunsThrough.step {P : State → Prop} {s t : State} (h : step s = .next t) (hs : P s) (ht : P t) :
    RunsThrough P 1 s t := by
  refine ⟨runsTo_one h, fun m hm => ?_⟩
  obtain rfl | rfl : m = 0 ∨ m = 1 := by omega
  · exact ⟨s, rfl, hs⟩
  · exact ⟨t, runsTo_one h, ht⟩

/-! ## The turns of SEEK (41_cycle_search.md R101) -/

/-- One turn of the loop without a match: the sample, one pulse, the count. -/
def seekTurn (r : State) : State :=
  { rulePulses 1#12 (takeSample r) with cyc := cycNext (rulePulses 1#12 (takeSample r)).cyc }

/-- What `n` turns without a match make of a state with `CLK` high and no pulses left. -/
def seekAfter (s : State) (n : Nat) : State :=
  { s with
    cyc := BitVec.ofNat 32 n, sample := if n = 0 then s.sample else s.sampleAt (n - 1)
    answers := s.answers.drop n, draws := s.draws + n, log := ((phaseEvents n).map .line).reverse ++ s.log }

theorem seekAfter_sampleAt (s : State) (n : Nat) : (seekAfter s n).sampleAt 0 = s.sampleAt n :=
  sampleAt_of_drop (s := s) (t := seekAfter s n) (n := n) rfl rfl rfl 0

theorem phaseEvents_succ (n : Nat) : phaseEvents (n + 1) = phaseEvents n ++ [.smp, .fall, .rise] := phaseEvents_add n 1

theorem seekEvents_eq (c : Nat) : seekEvents c = phaseEvents c ++ [.smp] := by
  induction c with
  | zero => rfl
  | succ c ih =>
    rw [phaseEvents_succ, List.append_assoc]
    have hlast : seekEvents (c + 1) = seekEvents c ++ [.fall, .rise, .smp] := by
      simp [seekEvents, List.replicate_succ']
    rw [hlast, ih, List.append_assoc]
    rfl

/-- The sample after `n` turns. -/
theorem takeSample_seekAfter (s : State) (n : Nat) :
    takeSample (seekAfter s n) =
      { s with
        cyc := BitVec.ofNat 32 n, sample := s.sampleAt n, answers := s.answers.drop (n + 1)
        draws := s.draws + (n + 1), log := ((seekEvents n).map .line).reverse ++ s.log } := by
  have hsample : remap (seekAfter s n).cfg.perm ((seekAfter s n).pinsAt 0) = s.sampleAt n := seekAfter_sampleAt s n
  rw [takeSample, hsample]
  simp [emit, seekAfter, seekEvents_eq, Nat.add_assoc]

/-- One turn more. -/
theorem seekTurn_seekAfter {s : State} (hclk : s.clk = true) (hpcnt : s.pcnt = 0#12) (n : Nat) :
    seekTurn (seekAfter s n) = seekAfter s (n + 1) := by
  have hcyc : cycNext (BitVec.ofNat 32 n) = BitVec.ofNat 32 (n + 1) := (BitVec.ofNat_add n 1).symm
  rw [seekTurn, takeSample_seekAfter, rulePulses_one]
  simp [seekAfter, seekEvents_eq, phaseEvents_succ, hclk, hpcnt, hcyc]

/-! ## The turns in the sequencer (43_sequencer_fsm.md R133, R134) -/

/-- SEEK `a` about to sample, over a state of its loop program. -/
def seekWait (a : Arg) (rest : List Word) (r : State) : State :=
  { inProgress (.seek a) rest r with st := .smp }

/-- SEEK is in progress and has given no response since `s`. -/
structure Seeking (s : State) (rest : List Word) (u : State) : Prop where
  busy : u.st ≠ .idle
  outTrace : u.outTrace = s.outTrace
  ops : u.ops = rest

theorem seekWait_seeking (a : Arg) (rest : List Word) (s : State) (n : Nat) :
    Seeking s rest (seekWait a rest (seekAfter s n)) :=
  ⟨nofun, by simp [outTrace_eq, seekWait, inProgress, seekAfter], rfl⟩

/-- SEEK between its sample and the pulse after it. -/
def seekSampled (a : Arg) (rest : List Word) (r : State) : State :=
  { takeSample (seekWait a rest r) with pcnt := 1#12 }

/-- A turn without a match takes three steps, in all of which SEEK is in progress. -/
theorem seekTurn_runs {s r : State} {a : Arg} {rest : List Word} (hr : r.resetReq = false)
    (hout : r.outTrace = s.outTrace) (hmatch : qual (r.sampleAt 0) a = false) :
    RunsThrough (Seeking s rest) 3 (seekWait a rest r) (seekWait a rest (seekTurn r)) := by
  have hsample : step (seekWait a rest r) = .next (beginPulse (seekSampled a rest r)) :=
    (step_busy (s := seekWait a rest r) hr nofun rfl).trans
      (Transition.seekPulse (s := seekWait a rest r) rfl a (ne_true_of_eq_false hmatch)).exec_eq
  have hlow : step (beginPulse (seekSampled a rest r)) = .next (pulseOver (seekSampled a rest r)) :=
    (step_busy (s := beginPulse (seekSampled a rest r)) hr nofun rfl).trans
      (Transition.low (AfterPulses.seek a) (s := beginPulse (seekSampled a rest r)) rfl).exec_eq
  have hturn : seekWait a rest (seekTurn r) = seekNext { pulseOver (seekSampled a rest r) with pcnt := 0#12 } := by
    rw [seekTurn, rulePulses_one]
    rfl
  have hhigh : step (pulseOver (seekSampled a rest r)) = .next (seekWait a rest (seekTurn r)) := by
    rw [hturn]
    exact (step_busy (i := .seek a) (s := pulseOver (seekSampled a rest r)) hr nofun rfl).trans
      ((AfterPulses.seek a).exec_last (s := pulseOver (seekSampled a rest r)) rfl (BitVec.sub_self 1#12))
  have hlines (new : List Event) (hnew : outEvents new = []) : outEvents (new ++ r.log) = s.outTrace := by
    rw [outEvents_append, hnew, List.append_nil, ← hout, outTrace_eq]
  have h0 : Seeking s rest (seekWait a rest r) := ⟨nofun, hout, rfl⟩
  have h1 : Seeking s rest (beginPulse (seekSampled a rest r)) :=
    ⟨nofun, hlines [.line .fall, .line .smp] rfl, rfl⟩
  have h2 : Seeking s rest (pulseOver (seekSampled a rest r)) :=
    ⟨nofun, hlines [.line .rise, .line .fall, .line .smp] rfl, rfl⟩
  have h3 : Seeking s rest (seekWait a rest (seekTurn r)) :=
    ⟨nofun, hlines [.line .rise, .line .fall, .line .smp] rfl, rfl⟩
  exact ((RunsThrough.step hsample h0 h1).trans (RunsThrough.step hlow h1 h2)).trans (RunsThrough.step hhigh h2 h3)

/-- The acceptance of SEEK. -/
theorem seek_accepted {s : State} {a : Arg} {rest : List Word} (h : Ready (.seek a) rest s) :
    step s = .next (seekWait a rest (seekAfter s 0)) :=
  (step_ready h).trans (exec_seek_idle (s := { s with ops := rest }) h.idle a)

/-- `n` turns without a match take `3n` steps. -/
theorem seekTurns_run {s : State} {a : Arg} {rest : List Word} (h : Ready (.seek a) rest s) {n : Nat}
    (hmatch : ∀ j, j < n → s.matchesAt a j = false) :
    RunsThrough (Seeking s rest) (3 * n) (seekWait a rest (seekAfter s 0)) (seekWait a rest (seekAfter s n)) := by
  obtain ⟨hclk, -, hpcnt, -⟩ := h.inv.idle h.idle
  induction n with
  | zero => exact .refl (seekWait_seeking a rest s 0)
  | succ n ih =>
    have hturn : qual ((seekAfter s n).sampleAt 0) a = false := by
      rw [seekAfter_sampleAt]
      exact hmatch n (by omega)
    have hrun := seekTurn_runs (rest := rest) (r := seekAfter s n) h.noReset
      (seekWait_seeking a rest s n).outTrace hturn
    rw [seekTurn_seekAfter hclk hpcnt] at hrun
    exact (ih fun j hj => hmatch j (by omega)).trans hrun

/-- After `n` samples without a match SEEK has been accepted and waits to sample again. -/
theorem seek_runsTo_wait {s : State} {a : Arg} {rest : List Word} (h : Ready (.seek a) rest s) {n : Nat}
    (hmatch : ∀ j, j < n → s.matchesAt a j = false) :
    runsTo (3 * n + 1) s (seekWait a rest (seekAfter s n)) :=
  (steps_succ_of_next (seek_accepted h) _).trans (seekTurns_run h hmatch).run

/-- On all the way there it is in progress. -/
theorem seek_busy {s : State} {a : Arg} {rest : List Word} (h : Ready (.seek a) rest s) {n : Nat}
    (hmatch : ∀ j, j < n → s.matchesAt a j = false) {m : Nat} (hpos : 0 < m) (hm : m ≤ 3 * n + 1) :
    ∃ u, runsTo m s u ∧ Seeking s rest u := by
  obtain ⟨k, rfl⟩ : ∃ k, m = k + 1 := ⟨m - 1, by omega⟩
  obtain ⟨u, hrun, hseek⟩ := (seekTurns_run h hmatch).all k (by omega)
  exact ⟨u, (steps_succ_of_next (seek_accepted h) k).trans hrun, hseek⟩

theorem seekWait_lineTrace (a : Arg) (rest : List Word) (s : State) (n : Nat) :
    (seekWait a rest (seekAfter s n)).lineTrace = s.lineTrace ++ phaseEvents n := by
  simp [lineTrace_eq, seekWait, inProgress, seekAfter]

/-- Settles O20: the state after `n` turns is `seekAfter`, and SEEK is in progress all the way (`seek_busy`). -/
theorem seekGoesOnWithoutMatch : Obligations.SeekGoesOnWithoutMatch := by
  intro s a rest n h hmatch
  refine ⟨⟨_, seek_runsTo_wait h hmatch, rfl, seekWait_lineTrace a rest s n⟩, fun m hpos hm => ?_⟩
  obtain ⟨u, hrun, hbusy, hout, hops⟩ := seek_busy h hmatch hpos hm
  exact ⟨u, hrun, hbusy, hout, hops⟩

/-! ## The match (41_cycle_search.md section 2) -/

/-- `c` is the first pin read from `s` on whose sample matches `a`. -/
structure FirstMatch (s : State) (a : Arg) (c : Nat) : Prop where
  hit : s.matchesAt a c = true
  before : ∀ j, j < c → s.matchesAt a j = false

/-- What SEEK leaves in its loop program, with its first match at `c`. -/
def seekFound (s : State) (c : Nat) : State := respond .ok (BitVec.ofNat 32 c) (takeSample (seekAfter s c))

/-- With its first match at `c` SEEK takes its acceptance, three steps for each turn, and one sample more. -/
theorem seek_runsTo_end {s : State} {a : Arg} {rest : List Word} {c : Nat} (h : Ready (.seek a) rest s)
    (hfirst : FirstMatch s a c) : runsTo (3 * c + 2) s (atEnd (.seek a) rest (seekFound s c)) := by
  have hhit : qual ((seekAfter s c).sampleAt 0) a = true := by
    rw [seekAfter_sampleAt]
    exact hfirst.hit
  have hend : step (seekWait a rest (seekAfter s c)) = .next (atEnd (.seek a) rest (seekFound s c)) :=
    (step_busy (s := seekWait a rest (seekAfter s c)) h.noReset nofun rfl).trans
      (Transition.seekEnd (s := seekWait a rest (seekAfter s c)) rfl a hhit).exec_eq
  have hrun := runsTo_trans (seek_runsTo_wait h hfirst.before) (runsTo_one hend)
  exact hrun

/-- The end of SEEK: the matching sample in `S`, the count in `CYC` and in the response. -/
theorem atEnd_seekFound {s : State} {a : Arg} {rest : List Word} (h : Ready (.seek a) rest s) (c : Nat) :
    atEnd (.seek a) rest (seekFound s c) =
      { s with
        ops := rest, arg := a, cyc := BitVec.ofNat 32 c, sample := s.sampleAt c
        answers := s.answers.drop (c + 1), draws := s.draws + (c + 1)
        log := .out (.rsp .ok (BitVec.ofNat 32 c)) :: (((seekEvents c).map .line).reverse ++ s.log) } := by
  obtain ⟨-, -, -, hopr⟩ := h.inv.idle h.idle
  rw [seekFound, takeSample_seekAfter]
  simp [atEnd, respond, emit, Instr.operand, hopr, h.idle]

theorem seek_ends {s : State} {a : Arg} {rest : List Word} {c : Nat} (h : Ready (.seek a) rest s)
    (hfirst : FirstMatch s a c) :
    ∃ t, runsTo (3 * c + 2) s t ∧ t.st = .idle ∧ t.ops = rest ∧ t.cfg = s.cfg ∧
      t.lineTrace = s.lineTrace ++ seekEvents c ∧ t.outTrace = s.outTrace ++ [.rsp .ok (BitVec.ofNat 32 c)] ∧
      t.trace = s.trace ++ (seekEvents c).map .line ++ [.out (.rsp .ok (BitVec.ofNat 32 c))] ∧
      t = { s with
            ops := rest, arg := a, cyc := BitVec.ofNat 32 c, sample := s.sampleAt c
            answers := s.answers.drop (c + 1), draws := s.draws + (c + 1), log := t.log } := by
  have hrun := seek_runsTo_end h hfirst
  rw [atEnd_seekFound h] at hrun
  exact ⟨_, hrun, h.idle, rfl, rfl, by simp [lineTrace_eq], by simp [outTrace_eq], by simp [trace_eq], rfl⟩

/-- Settles O19: `seek_ends`. -/
theorem seekAnswersTheFirstMatch : Obligations.SeekAnswersTheFirstMatch := by
  intro s a rest c h hhit hbefore
  obtain ⟨t, hrun, -, -, -, -, -, htrace, ht⟩ := seek_ends h ⟨hhit, hbefore⟩
  exact ⟨t, hrun, ht, htrace⟩

/-! ## The loop program of SEEK (43_sequencer_fsm.md R140) -/

theorem ruleSeekLoop_succ (fuel : Nat) (a : Arg) (r : State) :
    ruleSeekLoop (fuel + 1) a r =
      if qual (r.sampleAt 0) a then .ended (respond .ok r.cyc (takeSample r)) else ruleSeekLoop fuel a (seekTurn r) :=
  rfl

/-- The loop program finds the first match within its bound, or stands after as many turns. -/
theorem ruleSeek_cases {s : State} (hclk : s.clk = true) (hpcnt : s.pcnt = 0#12) (a : Arg) (fuel : Nat) :
    (∃ c, c < fuel ∧ FirstMatch s a c ∧ ruleSeek fuel a s = .ended (seekFound s c)) ∨
      ((∀ j, j < fuel → s.matchesAt a j = false) ∧ ruleSeek fuel a s = .going (seekAfter s fuel)) := by
  have hloop (n k : Nat) (hbefore : ∀ j, j < n → s.matchesAt a j = false) :
      (∃ c, c < n + k ∧ FirstMatch s a c ∧ ruleSeekLoop k a (seekAfter s n) = .ended (seekFound s c)) ∨
        ((∀ j, j < n + k → s.matchesAt a j = false) ∧
          ruleSeekLoop k a (seekAfter s n) = .going (seekAfter s (n + k))) := by
    induction k generalizing n with
    | zero => exact .inr ⟨hbefore, rfl⟩
    | succ k ih =>
      have hturn : qual ((seekAfter s n).sampleAt 0) a = s.matchesAt a n := by
        rw [seekAfter_sampleAt]
        rfl
      rw [ruleSeekLoop_succ, hturn]
      by_cases hhit : s.matchesAt a n = true
      · exact .inl ⟨n, by omega, ⟨hhit, hbefore⟩, if_pos hhit⟩
      · have hmiss : ∀ j, j < n + 1 → s.matchesAt a j = false := by
          intro j hj
          rcases Nat.lt_succ_iff_lt_or_eq.1 hj with hj | rfl
          · exact hbefore j hj
          · simpa using hhit
        rw [if_neg hhit, seekTurn_seekAfter hclk hpcnt, show n + (k + 1) = n + 1 + k by omega]
        exact ih (n + 1) hmiss
  have hall := hloop 0 fuel fun j hj => absurd hj (Nat.not_lt_zero j)
  rwa [Nat.zero_add] at hall

/-- Settles O30: both levels end at the first match, and without one stand after the same turns. -/
theorem sequencerAgreesWithSeekRule : Obligations.SequencerAgreesWithSeekRule := by
  intro s a rest fuel h
  obtain ⟨hclk, -, hpcnt, -⟩ := h.inv.idle h.idle
  rcases ruleSeek_cases hclk hpcnt a fuel with ⟨c, hc, hfirst, hended⟩ | ⟨hmiss, hgoing⟩
  · refine ⟨fun r hr => ?_, fun r hr => ?_⟩
    · cases hended.symm.trans hr
      exact ⟨c, hc, seek_runsTo_end h hfirst⟩
    · cases hended.symm.trans hr
  · refine ⟨fun r hr => ?_, fun r hr => ?_⟩
    · cases hgoing.symm.trans hr
    · cases hgoing.symm.trans hr
      have hwait := seek_runsTo_wait h hmiss
      refine ⟨hwait, seekWait_lineTrace a rest s fuel, rfl, fun n hpos hn => ?_⟩
      obtain ⟨u, hrun, hbusy, -, -⟩ := seek_busy h hmiss hpos hn
      rw [show 3 * fuel + 1 = n + (3 * fuel + 1 - n) by omega] at hwait
      have hlines := runsTo_lineTrace (runsTo_split hwait hrun)
      exact ⟨u, hrun, hbusy, hlines⟩

/-! ## A second search (70_reset_and_hazards.md section 4) -/

/-- No step puts a word back. -/
theorem step_ops_length {s t : State} (h : step s = .next t) (hr : s.resetReq = false) :
    t.ops.length ≤ s.ops.length := by
  obtain ⟨hbusy, hidle⟩ := busyStepAcceptsNoWord s t h hr
  by_cases hst : s.st = .idle
  · rw [hidle hst, List.length_tail]
    omega
  · rw [hbusy hst]

theorem runsTo_ops_length {n : Nat} {s t : State} (h : runsTo n s t) (hr : s.resetReq = false) :
    t.ops.length ≤ s.ops.length := by
  have hkeeps := keeps_of_step (P := fun u => u.resetReq = false ∧ u.ops.length ≤ s.ops.length)
    (fun u v ⟨hur, hu⟩ hstep => ⟨step_resetReq hstep hur, (step_ops_length hstep hur).trans hu⟩) ⟨hr, le_refl _⟩ h
  exact hkeeps.2

/-- In an idle state with a word presented the next step takes it for good. -/
theorem runsTo_zero_of_ops {n : Nat} {s t : State} (h : runsTo n s t) (hr : s.resetReq = false) (hst : s.st = .idle)
    (hpos : 0 < s.ops.length) (ho : t.ops = s.ops) : t = s := by
  cases n with
  | zero =>
    cases h
    rfl
  | succ n =>
    unfold runsTo steps at h
    cases hs : step s with
    | next s1 =>
      rw [hs] at h
      have hle := runsTo_ops_length h (step_resetReq hs hr)
      rw [(busyStepAcceptsNoWord s s1 hs hr).2 hst, ho, List.length_tail] at hle
      omega
    | fault r => simp [hs] at h
    | refused r => simp [hs] at h

/-- A SEEK that is over has found its first match, and a state with the next word still presented is its end. -/
theorem exists_firstMatch_of_ended {s t : State} {a : Arg} {w : Word} {rest : List Word} {n : Nat}
    (h : Ready (.seek a) (w :: rest) s) (hpos : 0 < n) (hrun : runsTo n s t) (hst : t.st = .idle)
    (hops : t.ops = w :: rest) : ∃ c, FirstMatch s a c ∧ runsTo (3 * c + 2) s t := by
  have hbusy (k : Nat) (hmiss : ∀ j, j < k → s.matchesAt a j = false) : 3 * k + 1 < n := by
    by_contra hn
    obtain ⟨u, hu, hu', -⟩ := seek_busy h hmiss hpos (by omega)
    rw [runsTo_unique hrun hu] at hst
    exact hu' hst
  have hexists : ∃ c, s.matchesAt a c = true := by
    by_contra hnone
    have hlong := hbusy n fun j _ => by simpa using not_exists.1 hnone j
    omega
  have hfirst : FirstMatch s a (Nat.find hexists) :=
    ⟨Nat.find_spec hexists, fun j hj => by simpa using Nat.find_min hexists hj⟩
  obtain ⟨u, hu, hust, huops, -⟩ := seek_ends h hfirst
  have hlong := hbusy _ hfirst.before
  rw [show n = 3 * Nat.find hexists + 2 + (n - (3 * Nat.find hexists + 2)) by omega] at hrun
  have hrest := runsTo_split hrun hu
  obtain rfl : t = u := runsTo_zero_of_ops hrest (runsTo_resetReq hu h.noReset) hust (by simp [huops])
    (hops.trans huops.symm)
  exact ⟨_, hfirst, hu⟩

/-- The acceptance of SEEK, and every turn without a match, leave it about to sample. -/
theorem seekWait_readsPins {s : State} {a : Arg} {rest : List Word} (h : Ready (.seek a) rest s) (n : Nat) :
    readsPins (seekWait a rest (seekAfter s n)) :=
  ⟨h.noReset, rfl⟩

/-- Settles O22: no clock or reset event lies between the matching sample of the first SEEK and the first sample of the
second, so it matches. -/
theorem seekAgainAnswersZero : Obligations.SeekAgainAnswersZero := by
  intro s a rest n t h hsync hpos hrun hst hops
  obtain ⟨c, hfirst, hend⟩ := exists_firstMatch_of_ended h hpos hrun hst hops
  have hready : Ready (.seek a) rest t := h.next hend hst hops
  obtain ⟨u, hu, -, -, hucfg, hulines, -⟩ := seek_ends h hfirst
  obtain rfl := runsTo_unique hend hu
  have hwait := seek_runsTo_wait h hfirst.before
  have hagain := runsTo_trans hend (runsTo_one (seek_accepted hready))
  have hlines : withoutSamples (seekWait a rest (seekAfter t 0)).lineTrace =
      withoutSamples (seekWait a (encode (.seek a) :: rest) (seekAfter s c)).lineTrace := by
    rw [seekWait_lineTrace, seekWait_lineTrace, hulines, seekEvents_eq]
    simp [withoutSamples, phaseEvents]
  have hsample := hsync.sampleAt_eq ⟨_, hagain⟩ ⟨_, hwait⟩ (seekWait_readsPins hready 0) (seekWait_readsPins h c) hlines
    hucfg
  have hmatch : FirstMatch t a 0 := by
    refine ⟨?_, fun j hj => absurd hj (Nat.not_lt_zero j)⟩
    have hhit := hfirst.hit
    rw [State.matchesAt, ← seekAfter_sampleAt] at hhit ⊢
    exact (congrArg (qual · a) hsample).trans hhit
  obtain ⟨v, hv, hvst, hvops, -, -, -, htrace, -⟩ := seek_ends hready hmatch
  exact ⟨v, hv, hvst, hvops, htrace.trans (List.append_assoc ..)⟩

/-! ## A periodic script (41_cycle_search.md section 2, premise A-SCRIPT) -/

theorem pulseIndex_append_phase (l : List LineEvent) : pulseIndex (l ++ [.smp, .fall, .rise]) = pulseIndex l + 1 := by
  simp [pulseIndex]

/-- Each turn of SEEK is one pulse of the script. -/
theorem pulseIndex_phaseEvents (l : List LineEvent) (n : Nat) : pulseIndex (l ++ phaseEvents n) = pulseIndex l + n := by
  induction n with
  | zero => simp [phaseEvents]
  | succ n ih => rw [phaseEvents_succ, ← List.append_assoc, pulseIndex_append_phase, ih, Nat.add_assoc]

theorem rstHigh_not_mem_phaseEvents (n : Nat) : LineEvent.rstHigh ∉ phaseEvents n := by
  simp [phaseEvents]

/-- The index of the script after `n` turns, when the last block reset lies before them. -/
theorem scriptIndex_phaseEvents {s t : State} {n : Nat} (hlines : t.lineTrace = s.lineTrace ++ phaseEvents n)
    (hmark : t.resetMark = s.resetMark) (hle : s.resetMark ≤ s.lineTrace.length) :
    t.scriptIndex = s.scriptIndex + n := by
  have hmem : LineEvent.rstHigh ∈ t.lineTrace ↔ LineEvent.rstHigh ∈ s.lineTrace := by
    rw [hlines, List.mem_append, or_iff_left (rstHigh_not_mem_phaseEvents n)]
  unfold State.scriptIndex
  simp only [hmem]
  split
  · rw [hlines, pulseIndex_phaseEvents]
  · rw [hlines, hmark, List.drop_append_of_le_length hle, pulseIndex_phaseEvents]

/-- Under A-SCRIPT the sample of SEEK after `n` turns is the script's, `n` pulses on. -/
theorem AScript.sampleAt {script : Nat → Pins} {s : State} (hscript : AScript script s) {a : Arg} {rest : List Word}
    (h : Ready (.seek a) rest s) {n : Nat} (hmiss : ∀ j, j < n → s.matchesAt a j = false) :
    s.sampleAt n = remap s.cfg.perm (script (s.scriptIndex + n)) := by
  have hpins := hscript.2 _ ⟨_, seek_runsTo_wait h hmiss⟩ (seekWait_readsPins h n)
  rw [scriptIndex_phaseEvents (seekWait_lineTrace a rest s n) rfl h.inv.mark] at hpins
  rw [← seekAfter_sampleAt]
  exact congrArg (remap s.cfg.perm) hpins

/-- A script of period `p` shows what it shows at `k` within one period after any index. -/
theorem exists_lt_of_periodic {f : Nat → Pins} {p : Nat} (hp : 0 < p) (hf : Function.Periodic f p) (i k : Nat) :
    ∃ j, j < p ∧ f (i + j) = f k := by
  have hshift : Function.Periodic (fun j => f (i + j)) p := hf.const_add i
  refine ⟨(k + i * p - i) % p, Nat.mod_lt _ hp, ?_⟩
  have hle : i ≤ i * p := Nat.le_mul_of_pos_right i hp
  calc f (i + (k + i * p - i) % p)
      = f (i + (k + i * p - i)) := hshift.map_mod_nat (k + i * p - i)
    _ = f (k + i * p) := by rw [show i + (k + i * p - i) = k + i * p by omega]
    _ = f k := hf.nat_mul i k

/-- Settles O21: as long as no sample matches, the samples follow the script (`AScript.sampleAt`), which shows the
address within one period. -/
theorem seekEndsWithinOnePeriod : Obligations.SeekEndsWithinOnePeriod := by
  intro s a rest script p k h hscript hp hperiod hshow
  obtain ⟨j, hj, hjk⟩ := exists_lt_of_periodic hp hperiod s.scriptIndex k
  have hexists : ∃ c, c < p ∧ s.matchesAt a c = true := by
    by_contra hnone
    have hmiss (i : Nat) (hi : i < j) : s.matchesAt a i = false := by
      by_contra hhit
      exact hnone ⟨i, by omega, by simpa using hhit⟩
    refine hnone ⟨j, hj, ?_⟩
    rw [State.matchesAt, hscript.sampleAt h hmiss, hjk]
    exact hshow
  obtain ⟨hlt, hhit⟩ := Nat.find_spec hexists
  have hfirst : FirstMatch s a (Nat.find hexists) := by
    refine ⟨hhit, fun i hi => ?_⟩
    by_contra hmatch
    exact Nat.find_min hexists hi ⟨by omega, by simpa using hmatch⟩
  obtain ⟨t, hrun, hst, -, -, -, hout, -⟩ := seek_ends h hfirst
  exact ⟨_, t, hlt, hrun, hst, hout⟩

end Sys2Proof.Machine
end

section
/-! PROOFS. The registers with unspecified reset values never show (10_state.md R36): a relation of states that differ
in `S`, `H`, `REC` and `PAGE` alone, and there only where the operation in progress has not written yet. Every step
keeps it, and states so related have the same traces. -/

namespace Sys2Proof.Machine

/-! ## The relation -/

/-- A state with other contents of `S`, `H`, `REC` and `PAGE`. -/
def withHidden (s : State) (a : Sample) (h : Vector Sample 4) (r : Vector Byte 4) (p : Page) : State :=
  { s with sample := a, hist := h, record := r, page := p }

theorem agreeButUnspecified_iff (s s' : State) :
    agreeButUnspecified s s' ↔ ∃ a h r p, s' = withHidden s a h r p := by
  refine ⟨fun hagree => ⟨_, _, _, _, hagree⟩, ?_⟩
  rintro ⟨a, h, r, p, rfl⟩
  rfl

/-- The present capture has written the history entry of phase `p`, and has yet to assemble its record. -/
def Written (s : State) (p : Phase) : Prop :=
  (s.opr = 5#3 ∨ s.opr = 6#3) ∧
    match s.st with
    | .idle => False
    | .plo => p.toNat ≤ s.ph.toNat
    | .phi => p.toNat ≤ s.ph.toNat
    | .smp => p.toNat < s.ph.toNat
    | .asm => True
    | .store => False

/-- The two states differ in `S`, `H`, `REC` and `PAGE` alone, and agree on what the operation in progress has written
there: the history entries of the present capture, the record to store, and the records since the last flush. -/
structure Alike (s s' : State) : Prop where
  agree : agreeButUnspecified s s'
  hist : ∀ p, Written s p → s'.histAt p = s.histAt p
  record : s.st = .store → s'.record = s.record
  page : s.opr = 6#3 → ∀ j, j < s.pIdx.toNat → Page.read s'.page j = Page.read s.page j

/-- The same relation in the middle of a burst, whatever `ST` is. -/
structure AlikeInBurst (s s' : State) : Prop where
  agree : agreeButUnspecified s s'
  hist : s.opr = 5#3 ∨ s.opr = 6#3 → ∀ p : Phase, p.toNat ≤ s.ph.toNat → s'.histAt p = s.histAt p
  page : s.opr = 6#3 → ∀ j, j < s.pIdx.toNat → Page.read s'.page j = Page.read s.page j

/-- In `IDLE` nothing written counts. -/
theorem Alike.of_idle {s s' : State} (hagree : agreeButUnspecified s s') (hst : s.st = .idle) (hopr : s.opr = 0#3) :
    Alike s s' := by
  refine ⟨hagree, fun p hp => ?_, fun hstore => ?_, fun hwalk => ?_⟩
  · simp [Written, hopr] at hp
  · simp [hst] at hstore
  · simp [hopr] at hwalk

/-- Operations that do not capture have written nothing that counts, outside `STORE`. -/
theorem Alike.of_opr {s s' : State} (hagree : agreeButUnspecified s s') (hst : s.st ≠ .store) (hcapt : s.opr ≠ 5#3)
    (hwalk : s.opr ≠ 6#3) : Alike s s' :=
  ⟨hagree, fun _ hp => (hp.1.elim hcapt hwalk).elim, fun h => absurd h hst, fun h => absurd h hwalk⟩

theorem AlikeInBurst.of_opr {s s' : State} (hagree : agreeButUnspecified s s') (hcapt : s.opr ≠ 5#3)
    (hwalk : s.opr ≠ 6#3) : AlikeInBurst s s' :=
  ⟨hagree, fun h => (h.elim hcapt hwalk).elim, fun h => absurd h hwalk⟩

theorem Alike.inBurst {s s' : State} (h : Alike s s') (hst : s.st = .plo ∨ s.st = .phi) : AlikeInBurst s s' := by
  refine ⟨h.agree, fun hopr p hp => h.hist p ⟨hopr, ?_⟩, h.page⟩
  rcases hst with hst | hst <;> rw [hst] <;> exact hp

theorem AlikeInBurst.with_pcnt {s s' : State} (h : AlikeInBurst s s') (k : Arg) :
    AlikeInBurst { s with pcnt := k } { s' with pcnt := k } := by
  obtain ⟨hagree, hhist, hpage⟩ := h
  obtain ⟨a, h, r, p, rfl⟩ := (agreeButUnspecified_iff s s').1 hagree
  exact ⟨rfl, hhist, hpage⟩

theorem AlikeInBurst.beginPulse {s s' : State} (h : AlikeInBurst s s') : Alike (beginPulse s) (beginPulse s') := by
  obtain ⟨hagree, hhist, hpage⟩ := h
  obtain ⟨a, h, r, p, rfl⟩ := (agreeButUnspecified_iff s s').1 hagree
  exact ⟨rfl, fun p hp => hhist hp.1 p hp.2, nofun, hpage⟩

theorem AlikeInBurst.lowHalf {s s' : State} (h : AlikeInBurst s s') : Alike (lowHalf s) (lowHalf s') := by
  obtain ⟨hagree, hhist, hpage⟩ := h
  obtain ⟨a, h, r, p, rfl⟩ := (agreeButUnspecified_iff s s').1 hagree
  exact ⟨rfl, fun p hp => hhist hp.1 p hp.2, nofun, hpage⟩

/-! ## The end of a burst -/

theorem AlikeInBurst.afterPhase {s s' : State} (h : AlikeInBurst s s') : Alike (afterPhase s) (afterPhase s') := by
  obtain ⟨hagree, hhist, hpage⟩ := h
  obtain ⟨a, h, r, p, rfl⟩ := (agreeButUnspecified_iff s s').1 hagree
  by_cases hph : s.ph = 3#2
  · have hlast : Machine.afterPhase s = { s with st := .asm } := if_pos hph
    have hlast' : Machine.afterPhase (withHidden s a h r p) = { withHidden s a h r p with st := .asm } := if_pos hph
    rw [hlast, hlast']
    refine ⟨rfl, fun q hq => hhist hq.1 q ?_, nofun, hpage⟩
    rw [hph]
    exact Nat.le_of_lt_succ q.isLt
  · have hnext : Machine.afterPhase s = { s with ph := phNext s.ph, st := .smp } := if_neg hph
    have hnext' : Machine.afterPhase (withHidden s a h r p) =
        { withHidden s a h r p with ph := phNext s.ph, st := .smp } := if_neg hph
    rw [hnext, hnext']
    refine ⟨rfl, fun q hq => hhist hq.1 q ?_, nofun, hpage⟩
    have hlt : q.toNat < (s.ph + 1#2).toNat := hq.2
    bv_omega

theorem AfterPulses.alike {i : Instr} {after : State → State} (ha : AfterPulses i after) {s s' : State}
    (h : AlikeInBurst s s') (hopr : s.opr = i.opcode.extractLsb' 0 3) : Alike (after s) (after s') := by
  obtain ⟨a, hh, r, p, hs⟩ := (agreeButUnspecified_iff s s').1 h.agree
  cases ha with
  | clkp n => exact .of_idle (by rw [hs]; rfl) rfl rfl
  | trst => exact .of_idle (by rw [hs]; rfl) rfl rfl
  | seek a => exact .of_opr (by rw [hs]; rfl) nofun (by simp [seekNext, hopr]) (by simp [seekNext, hopr])
  | capt => exact h.afterPhase
  | walk => exact h.afterPhase

theorem AfterPulses.alike_startPulses {i : Instr} {after : State → State} (ha : AfterPulses i after) {s s' : State}
    (h : AlikeInBurst s s') (hopr : s.opr = i.opcode.extractLsb' 0 3) (k : Arg) :
    Alike (startPulses k after s) (startPulses k after s') := by
  rw [startPulses_eq, startPulses_eq]
  split
  · exact ha.alike (h.with_pcnt 0#12) hopr
  · exact (h.with_pcnt k).beginPulse

/-! ## The transitions of a capture and of the store -/

/-- A phase writes the same sample into the same entry. -/
theorem alike_phase {s s' : State} (h : Alike s s') (hst : s.st = .smp) :
    AlikeInBurst { writeHist s.ph (takeSample s) with pcnt := 1#12 }
      { writeHist s'.ph (takeSample s') with pcnt := 1#12 } := by
  obtain ⟨hagree, hhist, -, hpage⟩ := h
  obtain ⟨a, h, r, p, rfl⟩ := (agreeButUnspecified_iff s s').1 hagree
  refine ⟨rfl, fun hopr q hq => ?_, hpage⟩
  show (writeHist s.ph (takeSample (withHidden s a h r p))).histAt q = (writeHist s.ph (takeSample s)).histAt q
  by_cases hne : s.ph = q
  · subst hne
    rw [histAt_writeHist_self, histAt_writeHist_self]
    rfl
  · rw [histAt_writeHist_ne hne, histAt_writeHist_ne hne]
    refine hhist q ⟨hopr, ?_⟩
    have hneq : q.toNat ≠ s.ph.toNat := fun heq => hne (BitVec.eq_of_toNat_eq heq.symm)
    have hle : q.toNat ≤ s.ph.toNat := hq
    rw [hst]
    show q.toNat < s.ph.toNat
    omega

/-- After the four phases both assemble the same record. -/
theorem assemble_withHidden {s : State} {a : Sample} {h : Vector Sample 4} {r : Vector Byte 4} {p : Page}
    (hhist : ∀ q, (withHidden s a h r p).histAt q = s.histAt q) :
    assemble (withHidden s a h r p) = withHidden (assemble s) a h (assemble s).record p := by
  rw [assemble_eq, assemble_eq, hhist, hhist]
  rfl

theorem Alike.hist_asm {s s' : State} (h : Alike s s') (hst : s.st = .asm) (hopr : s.opr = 5#3 ∨ s.opr = 6#3)
    (q : Phase) : s'.histAt q = s.histAt q := by
  refine h.hist q ⟨hopr, ?_⟩
  rw [hst]
  trivial

/-- The store of the same record makes the pages agree up to and with it. -/
theorem read_store_congr {p p' : Page} (hp : Page.wf p = true) (hp' : Page.wf p' = true) {i : Nat} (hi : i + 3 < 64)
    (hread : ∀ j, j < i → Page.read p' j = Page.read p j) (r : Vector Byte 4) {j : Nat} (hj : j < i + 4) :
    Page.read (pageWithRecord p' i r) j = Page.read (pageWithRecord p i r) j := by
  rw [read_pageWithRecord hp hi, read_pageWithRecord hp' hi]
  split_ifs with h3 h2 h1 h0
  · rfl
  · rfl
  · rfl
  · rfl
  · exact hread j (by omega)

theorem bytes_congr {p p' : Page} (h : ∀ j, j < 64 → Page.read p' j = Page.read p j) : Page.bytes p' = Page.bytes p :=
  List.map_congr_left fun j hj => h j (List.mem_range.1 hj)

/-- The count of a record shows of the page only its bytes when it is full. -/
theorem countRecord_withHidden {s : State} {a : Sample} {h : Vector Sample 4} {p : Page}
    (hbytes : (s.pIdx + 4#7).toNat = 64 → Page.bytes p = Page.bytes s.page) :
    countRecord (withHidden s a h s.record p) = withHidden (countRecord s) a h s.record p := by
  have hout : (if (s.pIdx + 4#7).toNat = 64 then [Event.out (.pageOut (Page.bytes p))] else []) =
      if (s.pIdx + 4#7).toNat = 64 then [Event.out (.pageOut (Page.bytes s.page))] else [] := by
    split
    · next hfull => rw [hbytes hfull]
    · rfl
  rw [countRecord_eq, countRecord_eq, withHidden, withHidden]
  congr 1
  exact congrArg (· ++ _) hout

/-- What a walk leaves after a record is alike when the pages agree below the page index. -/
theorem alike_walkNext {s : State} {a : Sample} {h : Vector Sample 4} {r : Vector Byte 4} {p : Page}
    (hpage : ∀ j, j < s.pIdx.toNat → Page.read p j = Page.read s.page j) :
    Alike (walkNext s) (walkNext (withHidden s a h r p)) := by
  by_cases hlast : s.wAddr.toNat = 4096
  · have hend : walkNext s = finish .ok (packCsum s.csum) s := if_pos hlast
    have hend' : walkNext (withHidden s a h r p) = finish .ok (packCsum s.csum) (withHidden s a h r p) := if_pos hlast
    rw [hend, hend']
    exact .of_idle rfl rfl rfl
  · rw [walkNext_capture hlast, walkNext_capture (s := withHidden s a h r p) hlast]
    exact ⟨rfl, fun q hq => absurd hq.2 (Nat.not_lt_zero _), nofun, fun _ => hpage⟩

/-- The store of a record keeps the relation: the same record in the same place, and equal bytes when the page is
full. -/
theorem alike_walkStore {s s' : State} (h : Alike s s') (hst : s.st = .store) (hp : Page.wf s.page = true)
    (hp' : Page.wf s'.page = true) (hroom : s.pIdx.toNat + 3 < 64) (hopr : s.opr = 6#3) :
    Alike (walkNext (countRecord { s with page := pageWithRecord s.page s.pIdx.toNat s.record }))
      (walkNext (countRecord { s' with page := pageWithRecord s'.page s'.pIdx.toNat s'.record })) := by
  obtain ⟨hagree, -, hrecord, hpage⟩ := h
  have hr : s'.record = s.record := hrecord hst
  obtain ⟨a, h, r, p, rfl⟩ := (agreeButUnspecified_iff s s').1 hagree
  obtain rfl : r = s.record := hr
  have hread (j : Nat) (hj : j < s.pIdx.toNat + 4) :
      Page.read (pageWithRecord p s.pIdx.toNat s.record) j =
        Page.read (pageWithRecord s.page s.pIdx.toNat s.record) j :=
    read_store_congr hp hp' hroom (hpage hopr) s.record hj
  have hbytes (hfull : (s.pIdx + 4#7).toNat = 64) :
      Page.bytes (pageWithRecord p s.pIdx.toNat s.record) =
        Page.bytes (pageWithRecord s.page s.pIdx.toNat s.record) :=
    bytes_congr fun j hj => hread j (by bv_omega)
  have hcount := countRecord_withHidden (a := a) (h := h)
    (s := { s with page := pageWithRecord s.page s.pIdx.toNat s.record }) hbytes
  refine (congrArg (fun x => Alike _ (walkNext x)) hcount).mpr (alike_walkNext fun j hj => ?_)
  rw [countRecord_eq] at hj ⊢
  refine hread j ?_
  have hlt : j < (if (s.pIdx + 4#7).toNat = 64 then 0#7 else s.pIdx + 4#7).toNat := hj
  split at hlt
  · simp at hlt
  · bv_omega

/-! ## Every transition and every step -/

/-- The same transition is taken from both states and keeps the relation. -/
theorem Transition.alike {i : Instr} {s s' t : State} (htrans : Transition i s t) (hinv : Inv s) (hinv' : Inv s')
    (hi : InCharge i s) (halike : Alike s s') : ∃ t', Transition i s' t' ∧ Alike t t' := by
  obtain ⟨a, h, r, p, rfl⟩ := (agreeButUnspecified_iff s s').1 halike.agree
  cases htrans with
  | clkp hst n =>
    have hburst : AlikeInBurst (latch (.clkp n) s) (latch (.clkp n) (withHidden s a h r p)) :=
      .of_opr rfl (by simp) (by simp)
    exact ⟨_, .clkp (s := withHidden s a h r p) hst n, (AfterPulses.clkp n).alike_startPulses hburst rfl n⟩
  | trst hst =>
    have hburst : AlikeInBurst (driveRst false (latch .trst s)) (driveRst false (latch .trst (withHidden s a h r p))) :=
      .of_opr rfl (by simp) (by simp)
    exact ⟨_, .trst hst, AfterPulses.trst.alike_startPulses hburst rfl _⟩
  | samp hst => exact ⟨_, .samp hst, .of_opr rfl nofun (by simp) (by simp)⟩
  | seek hst b => exact ⟨_, .seek (s := withHidden s a h r p) hst b, .of_opr rfl nofun (by simp) (by simp)⟩
  | capt hst =>
    exact ⟨_, .capt hst, rfl, fun q hq => absurd hq.2 (Nat.not_lt_zero _), nofun, fun hwalk => absurd hwalk (by simp)⟩
  | walk hst =>
    exact ⟨_, .walk hst, rfl, fun q hq => absurd hq.2 (Nat.not_lt_zero _), nofun,
      fun _ j hj => absurd hj (Nat.not_lt_zero _)⟩
  | low ha hst => exact ⟨_, .low ha hst, (halike.inBurst (.inl hst)).lowHalf⟩
  | high ha hst =>
    exact ⟨_, .high ha hst, ha.alike_startPulses (halike.inBurst (.inr hst)) (hi.opr hst nofun) _⟩
  | sampEnd hst => exact ⟨_, .sampEnd hst, .of_idle rfl rfl rfl⟩
  | seekEnd hst b hmatch => exact ⟨_, .seekEnd (s := withHidden s a h r p) hst b hmatch, .of_idle rfl rfl rfl⟩
  | seekPulse hst b hmatch =>
    have hopr : s.opr = 4#3 := hi.opr hst nofun
    exact ⟨_, .seekPulse (s := withHidden s a h r p) hst b hmatch, .of_opr rfl nofun (by simp [hopr]) (by simp [hopr])⟩
  | phase hc hst => exact ⟨_, .phase hc hst, (alike_phase halike hst).beginPulse⟩
  | captEnd hst =>
    have hsame := assemble_withHidden (halike.hist_asm hst (.inl (hi.opr hst nofun)))
    refine ⟨_, .captEnd hst, .of_idle ?_ rfl rfl⟩
    rw [captAssemble, captAssemble, hsame]
    rfl
  | walkAssemble hst =>
    have hsame := assemble_withHidden (halike.hist_asm hst (.inr (hi.opr hst nofun)))
    refine ⟨_, .walkAssemble hst, ?_⟩
    rw [hsame]
    exact ⟨rfl, fun q hq => hq.2.elim, fun _ => rfl, halike.page⟩
  | walkStore hst hroom =>
    exact ⟨_, .walkStore hst hroom, alike_walkStore halike hst hinv.page hinv'.page hroom (hi.opr hst nofun)⟩

/-- Block reset leaves the same state, whatever the four registers held. -/
theorem blockReset_congr {s s' : State} (h : agreeButUnspecified s s') : blockReset s' = blockReset s := by
  obtain ⟨a, hist, r, p, rfl⟩ := (agreeButUnspecified_iff s s').1 h
  rw [blockReset_eq, blockReset_eq]
  rfl

theorem alike_blockReset (s : State) : Alike (blockReset s) (blockReset s) := by
  rw [blockReset_eq]
  exact .of_idle rfl rfl rfl

theorem Alike.with_ops {s s' : State} (h : Alike s s') (rest : List Word) :
    Alike { s with ops := rest } { s' with ops := rest } := by
  obtain ⟨hagree, hhist, hrecord, hpage⟩ := h
  obtain ⟨a, h, r, p, rfl⟩ := (agreeButUnspecified_iff s s').1 hagree
  exact ⟨rfl, hhist, hrecord, hpage⟩

theorem Alike.illegalOp {s s' : State} (h : Alike s s') (w : Word) : Alike (illegalOp w s) (illegalOp w s') := by
  obtain ⟨hagree, hhist, hrecord, hpage⟩ := h
  obtain ⟨a, h, r, p, rfl⟩ := (agreeButUnspecified_iff s s').1 hagree
  exact ⟨rfl, hhist, hrecord, hpage⟩

/-- Every step keeps the relation. -/
theorem Alike.step {s s' t : State} (halike : Alike s s') (hinv : Inv s) (hinv' : Inv s') (hstep : step s = .next t) :
    ∃ t', step s' = .next t' ∧ Alike t t' := by
  have hreset := blockReset_congr halike.agree
  obtain ⟨a, h, r, p, rfl⟩ := (agreeButUnspecified_iff s s').1 halike.agree
  rcases step_cases hstep with ⟨hr, rfl⟩ | ⟨hr, hst, ho, rfl⟩ | ⟨hr, hst, w, rest, e, ho, hd, rfl⟩ |
    ⟨hr, hst, w, rest, i, ho, hd, hexec⟩ | ⟨hr, hst, i, hrun, hexec⟩
  · exact ⟨_, step_of_request hr, hreset ▸ alike_blockReset s⟩
  · exact ⟨_, step_waits hr hst ho, halike⟩
  · exact ⟨_, step_answers_illegal hr hst ho (illegal_of_decode_error hd), (halike.with_ops rest).illegalOp w⟩
  · obtain ⟨t', ht', halike'⟩ := (transition_of_exec hexec).alike (hinv.with_ops rest) (hinv'.with_ops rest)
      (fun hbusy => absurd hst hbusy) (halike.with_ops rest)
    exact ⟨t', (step_accepts (s := withHidden s a h r p) hr hst ho hd).trans ht'.exec_eq, halike'⟩
  · obtain ⟨t', ht', halike'⟩ := (transition_of_exec hexec).alike hinv hinv' (fun _ => opr_of_running hrun) halike
    exact ⟨t', (step_busy (s := withHidden s a h r p) hr hst hrun).trans ht'.exec_eq, halike'⟩

/-- So does every run. -/
theorem Alike.runsTo {n : Nat} {s s' t : State} (h : Alike s s') (hinv : Inv s) (hinv' : Inv s') (hrun : runsTo n s t) :
    ∃ t', runsTo n s' t' ∧ Alike t t' := by
  induction n generalizing s s' with
  | zero =>
    cases hrun
    exact ⟨s', rfl, h⟩
  | succ n ih =>
    obtain ⟨s1, hs1⟩ := invariantStatesNeverStop s hinv
    obtain ⟨s1', hs1', h1⟩ := h.step hinv hinv' hs1
    obtain ⟨t', hrun', ht⟩ := ih h1 (stepKeepsTheInvariant _ _ hinv hs1) (stepKeepsTheInvariant _ _ hinv' hs1')
      ((steps_succ_of_next hs1 n).symm.trans hrun)
    exact ⟨t', (steps_succ_of_next hs1' n).trans hrun', ht⟩

/-- Settles O43: idle states that differ in the four registers are related, every run keeps the relation, and related
states have the same traces. -/
theorem unspecifiedRegistersNeverShow : Obligations.UnspecifiedRegistersNeverShow := by
  intro s s' hinv hinv' hst hagree n t hrun
  obtain ⟨-, -, -, hopr⟩ := hinv.idle hst
  obtain ⟨t', hrun', ht⟩ := (Alike.of_idle hagree hst hopr).runsTo hinv hinv' hrun
  exact ⟨t', hrun', (congrArg State.log ht.agree :)⟩

end Sys2Proof.Machine
end
